-- ==== Sys2Proof/Word.lean ====
section
/-! DEFINITION. The word types of the machine: 8-bit data, 16-bit CPU addresses, the PPU's 15-bit VRAM address (R6, R10, R25). -/

namespace Sys2Proof

/-- A byte, the width of every data transfer (R6, R54). -/
abbrev Byte := BitVec 8

/-- A 16-bit CPU address or the program counter (R6, R12). -/
abbrev Word := BitVec 16

/-- The PPU's internal 15-bit VRAM address (R25). -/
abbrev VAddr := BitVec 15

end Sys2Proof
end

