-- ==== Sys2Proof/Machine/Bits.lean ====
section
/-! DEFINITION. Bit fields, byte order and sign extension (00_scope.md sections 5 and 6), used by the decoder and the machine. -/

namespace Sys2Proof

/-- `lo8(v)`: the low byte of a word. -/
def lo8 (w : Word) : Byte := w.setWidth 8

/-- `hi8(v)`: the high byte of a word. -/
def hi8 (w : Word) : Byte := (w >>> 8).setWidth 8

/-- `page(v)`: the word with its low byte cleared. -/
def page (w : Word) : Word := w &&& 0xFF00

/-- `hi:lo`: two bytes as a word, little-endian in memory (R43, R72). -/
def hiLo (hi lo : Byte) : Word := hi ++ lo

/-- `zext_16(b)`. -/
def zext16 (b : Byte) : Word := b.setWidth 16

/-- `sext_16(b)`: the byte as a signed number (R72, R86). -/
def sext16 (b : Byte) : Word := b.signExtend 16

/-- `v[i]` of a byte. -/
def bitAt (b : Byte) (i : Nat) : Bool := b.getLsbD i

/-- Byte number `i` of an instruction whose bits are `w`, bit 0 the least significant bit of the first byte; bits at
or above `nbits` are 0. -/
def tableByte (nbits w i : Nat) : Byte := BitVec.ofNat 8 (w % 2 ^ nbits / 256 ^ i)

end Sys2Proof
end

