-- ==== Sys2Proof/Syntax.lean ====
section
/-! DEFINITION. The instructions: operand forms (R74 to R86) and one constructor per mnemonic of spec/opcode_table.json.
A row of the table is one constructor with one operand form; the 105 rows named ILLEGAL are the constructor `illegal`
with the opcode byte (R93). -/

namespace Sys2Proof

/-- The thirteen addressing modes, named as the opcode table names them (R74 to R86). -/
inductive Mode where
  | impl | acc | imm | zp | zpx | zpy | abs | absx | absy | ind | indx | indy | rel
  deriving DecidableEq, Repr

/-- The "instruction kind" field of a table entry (R24): the 56 mnemonics of R92, and the mark of an illegal entry. -/
inductive Mnemonic where
  | LDA | LDX | LDY | STA | STX | STY
  | TAX | TAY | TXA | TYA | TSX | TXS | PHA | PHP | PLA | PLP
  | ADC | SBC | CMP | CPX | CPY
  | AND | ORA | EOR | BIT
  | ASL | LSR | ROL | ROR | INC | DEC | INX | INY | DEX | DEY
  | JMP | JSR | RTS | BCC | BCS | BEQ | BNE | BMI | BPL | BVC | BVS
  | CLC | SEC | CLI | SEI | CLV | CLD | SED | NOP | BRK | RTI
  | ILLEGAL
  deriving DecidableEq, Repr

/-- An operand in memory, by the mode that gives its effective address, with the operand bytes of the
instruction (R77 to R82, R84, R85; a two-byte operand is already assembled, R72). -/
inductive Mem where
  | zp (b : Byte)
  | zpx (b : Byte)
  | zpy (b : Byte)
  | abs (w : Word)
  | absx (w : Word)
  | absy (w : Word)
  | indx (b : Byte)
  | indy (b : Byte)
  deriving DecidableEq, Repr

/-- The operand of an instruction that reads a value: the immediate byte (R76) or a byte in memory. -/
inductive Src where
  | imm (v : Byte)
  | mem (m : Mem)
  deriving DecidableEq, Repr

/-- The operand of a shift or rotate: the accumulator (R75) or a byte in memory. -/
inductive Rmw where
  | acc
  | mem (m : Mem)
  deriving DecidableEq, Repr

/-- The operand of JMP: an address (R80) or the address of a pointer (R83). -/
inductive Target where
  | abs (w : Word)
  | ind (w : Word)
  deriving DecidableEq, Repr

/-- The instructions, with their operands. A branch carries its signed offset byte (R86). -/
inductive Instr where
  -- loads and stores (R100 to R105)
  | lda (o : Src)
  | ldx (o : Src)
  | ldy (o : Src)
  | sta (m : Mem)
  | stx (m : Mem)
  | sty (m : Mem)
  -- transfers and stack (R110 to R123)
  | tax
  | tay
  | txa
  | tya
  | tsx
  | txs
  | pha
  | php
  | pla
  | plp
  -- arithmetic and compares (R130 to R134)
  | adc (o : Src)
  | sbc (o : Src)
  | cmp (o : Src)
  | cpx (o : Src)
  | cpy (o : Src)
  -- logic and bit test (R140 to R143)
  | and (o : Src)
  | ora (o : Src)
  | eor (o : Src)
  | bit (m : Mem)
  -- shifts, rotates, increments, decrements (R151 to R160)
  | asl (o : Rmw)
  | lsr (o : Rmw)
  | rol (o : Rmw)
  | ror (o : Rmw)
  | inc (m : Mem)
  | dec (m : Mem)
  | inx
  | iny
  | dex
  | dey
  -- control transfer (R170 to R182)
  | jmp (t : Target)
  | jsr (w : Word)
  | rts
  | bcc (off : Byte)
  | bcs (off : Byte)
  | beq (off : Byte)
  | bne (off : Byte)
  | bmi (off : Byte)
  | bpl (off : Byte)
  | bvc (off : Byte)
  | bvs (off : Byte)
  -- flags, NOP, system (R190 to R206)
  | clc
  | sec
  | cli
  | sei
  | clv
  | cld
  | sed
  | nop
  | brk
  | rti
  -- the 105 illegal opcodes (R93)
  | illegal (op : Byte)
  deriving DecidableEq, Repr

/-- The mode of a memory operand. -/
def Mem.mode : Mem → Mode
  | .zp _ => .zp
  | .zpx _ => .zpx
  | .zpy _ => .zpy
  | .abs _ => .abs
  | .absx _ => .absx
  | .absy _ => .absy
  | .indx _ => .indx
  | .indy _ => .indy

/-- The mode of a read operand. -/
def Src.mode : Src → Mode
  | .imm _ => .imm
  | .mem m => m.mode

/-- The mode of a read-modify-write operand. -/
def Rmw.mode : Rmw → Mode
  | .acc => .acc
  | .mem m => m.mode

/-- The mode of a jump operand. -/
def Target.mode : Target → Mode
  | .abs _ => .abs
  | .ind _ => .ind

/-- The mnemonic of an instruction. -/
def Instr.mnemonic : Instr → Mnemonic
  | .lda _ => .LDA | .ldx _ => .LDX | .ldy _ => .LDY | .sta _ => .STA | .stx _ => .STX | .sty _ => .STY
  | .tax => .TAX | .tay => .TAY | .txa => .TXA | .tya => .TYA | .tsx => .TSX | .txs => .TXS
  | .pha => .PHA | .php => .PHP | .pla => .PLA | .plp => .PLP
  | .adc _ => .ADC | .sbc _ => .SBC | .cmp _ => .CMP | .cpx _ => .CPX | .cpy _ => .CPY
  | .and _ => .AND | .ora _ => .ORA | .eor _ => .EOR | .bit _ => .BIT
  | .asl _ => .ASL | .lsr _ => .LSR | .rol _ => .ROL | .ror _ => .ROR | .inc _ => .INC | .dec _ => .DEC
  | .inx => .INX | .iny => .INY | .dex => .DEX | .dey => .DEY
  | .jmp _ => .JMP | .jsr _ => .JSR | .rts => .RTS
  | .bcc _ => .BCC | .bcs _ => .BCS | .beq _ => .BEQ | .bne _ => .BNE
  | .bmi _ => .BMI | .bpl _ => .BPL | .bvc _ => .BVC | .bvs _ => .BVS
  | .clc => .CLC | .sec => .SEC | .cli => .CLI | .sei => .SEI | .clv => .CLV | .cld => .CLD | .sed => .SED
  | .nop => .NOP | .brk => .BRK | .rti => .RTI
  | .illegal _ => .ILLEGAL

/-- The addressing mode of an instruction: its column in the table of R92. -/
def Instr.mode : Instr → Mode
  | .lda o | .ldx o | .ldy o | .adc o | .sbc o | .cmp o | .cpx o | .cpy o | .and o | .ora o | .eor o => o.mode
  | .sta m | .stx m | .sty m | .bit m | .inc m | .dec m => m.mode
  | .asl o | .lsr o | .rol o | .ror o => o.mode
  | .jmp t => t.mode
  | .jsr _ => .abs
  | .bcc _ | .bcs _ | .beq _ | .bne _ | .bmi _ | .bpl _ | .bvc _ | .bvs _ => .rel
  | .tax | .tay | .txa | .tya | .tsx | .txs | .pha | .php | .pla | .plp
  | .inx | .iny | .dex | .dey | .rts
  | .clc | .sec | .cli | .sei | .clv | .cld | .sed | .nop | .brk | .rti | .illegal _ => .impl

end Sys2Proof
end

