-- ==== Sys2Proof/WellFormed.lean ====
section
/-! DEFINITION. Which terms of Instr are instructions of the set: the operand forms each rule lists under "Operands"
(R100 to R206) and the illegal opcodes R93 lists. -/

namespace Sys2Proof

/-- Illegal opcodes (R93), part 1 of 5. -/
def illegalOpcodes1 : List Byte :=
  [0x02, 0x03, 0x04, 0x07, 0x0B, 0x0C, 0x0F, 0x12, 0x13, 0x14, 0x17,
   0x1A, 0x1B, 0x1C, 0x1F, 0x22, 0x23, 0x27, 0x2B, 0x2F, 0x32]

/-- Illegal opcodes (R93), part 2 of 5. -/
def illegalOpcodes2 : List Byte :=
  [0x33, 0x34, 0x37, 0x3A, 0x3B, 0x3C, 0x3F, 0x42, 0x43, 0x44, 0x47,
   0x4B, 0x4F, 0x52, 0x53, 0x54, 0x57, 0x5A, 0x5B, 0x5C, 0x5F]

/-- Illegal opcodes (R93), part 3 of 5. -/
def illegalOpcodes3 : List Byte :=
  [0x62, 0x63, 0x64, 0x67, 0x6B, 0x6F, 0x72, 0x73, 0x74, 0x77, 0x7A,
   0x7B, 0x7C, 0x7F, 0x80, 0x82, 0x83, 0x87, 0x89, 0x8B, 0x8F]

/-- Illegal opcodes (R93), part 4 of 5. -/
def illegalOpcodes4 : List Byte :=
  [0x92, 0x93, 0x97, 0x9B, 0x9C, 0x9E, 0x9F, 0xA3, 0xA7, 0xAB, 0xAF,
   0xB2, 0xB3, 0xB7, 0xBB, 0xBF, 0xC2, 0xC3, 0xC7, 0xCB, 0xCF]

/-- Illegal opcodes (R93), part 5 of 5. -/
def illegalOpcodes5 : List Byte :=
  [0xD2, 0xD3, 0xD4, 0xD7, 0xDA, 0xDB, 0xDC, 0xDF, 0xE2, 0xE3, 0xE7,
   0xEB, 0xEF, 0xF2, 0xF3, 0xF4, 0xF7, 0xFA, 0xFB, 0xFC, 0xFF]

/-- The 105 illegal opcode values, as R93 lists them. -/
def illegalOpcodes : List Byte :=
  illegalOpcodes1 ++ illegalOpcodes2 ++ illegalOpcodes3 ++ illegalOpcodes4 ++ illegalOpcodes5

/-- The eight modes of LDA, ADC, SBC, CMP, AND, ORA, EOR (R100, R130, R131, R132, R140, R141, R142). -/
def eightModes : List Mode := [.imm, .zp, .zpx, .abs, .absx, .absy, .indx, .indy]

/-- The modes of ASL, LSR, ROL, ROR (R151 to R154). -/
def shiftModes : List Mode := [.acc, .zp, .zpx, .abs, .absx]

/-- The modes of INC and DEC (R155, R156). -/
def incDecModes : List Mode := [.zp, .zpx, .abs, .absx]

/-- Well-formed: a form the instruction set has. -/
def Instr.wf : Instr → Bool
  | .lda o | .adc o | .sbc o | .cmp o | .and o | .ora o | .eor o => eightModes.contains o.mode
  | .ldx o => [Mode.imm, .zp, .zpy, .abs, .absy].contains o.mode
  | .ldy o => [Mode.imm, .zp, .zpx, .abs, .absx].contains o.mode
  | .sta m => [Mode.zp, .zpx, .abs, .absx, .absy, .indx, .indy].contains m.mode
  | .stx m => [Mode.zp, .zpy, .abs].contains m.mode
  | .sty m => [Mode.zp, .zpx, .abs].contains m.mode
  | .cpx o | .cpy o => [Mode.imm, .zp, .abs].contains o.mode
  | .bit m => [Mode.zp, .abs].contains m.mode
  | .asl o | .lsr o | .rol o | .ror o => shiftModes.contains o.mode
  | .inc m | .dec m => incDecModes.contains m.mode
  | .jmp _ | .jsr _ => true
  | .bcc _ | .bcs _ | .beq _ | .bne _ | .bmi _ | .bpl _ | .bvc _ | .bvs _ => true
  | .tax | .tay | .txa | .tya | .tsx | .txs | .pha | .php | .pla | .plp
  | .inx | .iny | .dex | .dey | .rts
  | .clc | .sec | .cli | .sei | .clv | .cld | .sed | .nop | .brk | .rti => true
  | .illegal op => illegalOpcodes.contains op

end Sys2Proof
end

