-- ==== Sys2Proof/Decode.lean ====
section
/-! DEFINITION. The InstructionDefinition table (R24, R91, R92), the decoder (R70 to R73, R95), total on any bytes, and
after it the encoder. The decoder's table is written from the opcode map of R91 and spec/opcode_table.json, the
encoder's from the table of R92, so that a wrong byte in either breaks their agreement. -/

namespace Sys2Proof

/-- One entry of the instruction table: "instruction kind, addressing mode, base cycle count, whether the mode can add
a page-crossing cycle, legality" (R24). -/
structure OpEntry where
  kind : Mnemonic
  mode : Mode
  base : Nat
  crossing : Bool
  legal : Bool
  deriving DecidableEq, Repr

/-- A legal entry that is not crossing-sensitive. -/
def legal (k : Mnemonic) (m : Mode) (base : Nat) : OpEntry := ⟨k, m, base, false, true⟩

/-- A legal, crossing-sensitive entry (R87). -/
def legalX (k : Mnemonic) (m : Mode) (base : Nat) : OpEntry := ⟨k, m, base, true, true⟩

/-- An illegal entry (R93): one cycle, no operand. -/
def bad : OpEntry := ⟨.ILLEGAL, .impl, 1, false, false⟩

/-- Row 0x of the opcode map (R91) with the cycle counts of R92. -/
def opcodeRow0 : List OpEntry :=
  [legal .BRK .impl 7, legal .ORA .indx 6, bad, bad,
   bad, legal .ORA .zp 3, legal .ASL .zp 5, bad,
   legal .PHP .impl 3, legal .ORA .imm 2, legal .ASL .acc 2, bad,
   bad, legal .ORA .abs 4, legal .ASL .abs 6, bad]

/-- Row 1x of the opcode map (R91) with the cycle counts of R92. -/
def opcodeRow1 : List OpEntry :=
  [legal .BPL .rel 2, legalX .ORA .indy 5, bad, bad,
   bad, legal .ORA .zpx 4, legal .ASL .zpx 6, bad,
   legal .CLC .impl 2, legalX .ORA .absy 4, bad, bad,
   bad, legalX .ORA .absx 4, legal .ASL .absx 7, bad]

/-- Row 2x of the opcode map (R91) with the cycle counts of R92. -/
def opcodeRow2 : List OpEntry :=
  [legal .JSR .abs 6, legal .AND .indx 6, bad, bad,
   legal .BIT .zp 3, legal .AND .zp 3, legal .ROL .zp 5, bad,
   legal .PLP .impl 4, legal .AND .imm 2, legal .ROL .acc 2, bad,
   legal .BIT .abs 4, legal .AND .abs 4, legal .ROL .abs 6, bad]

/-- Row 3x of the opcode map (R91) with the cycle counts of R92. -/
def opcodeRow3 : List OpEntry :=
  [legal .BMI .rel 2, legalX .AND .indy 5, bad, bad,
   bad, legal .AND .zpx 4, legal .ROL .zpx 6, bad,
   legal .SEC .impl 2, legalX .AND .absy 4, bad, bad,
   bad, legalX .AND .absx 4, legal .ROL .absx 7, bad]

/-- Row 4x of the opcode map (R91) with the cycle counts of R92. -/
def opcodeRow4 : List OpEntry :=
  [legal .RTI .impl 6, legal .EOR .indx 6, bad, bad,
   bad, legal .EOR .zp 3, legal .LSR .zp 5, bad,
   legal .PHA .impl 3, legal .EOR .imm 2, legal .LSR .acc 2, bad,
   legal .JMP .abs 3, legal .EOR .abs 4, legal .LSR .abs 6, bad]

/-- Row 5x of the opcode map (R91) with the cycle counts of R92. -/
def opcodeRow5 : List OpEntry :=
  [legal .BVC .rel 2, legalX .EOR .indy 5, bad, bad,
   bad, legal .EOR .zpx 4, legal .LSR .zpx 6, bad,
   legal .CLI .impl 2, legalX .EOR .absy 4, bad, bad,
   bad, legalX .EOR .absx 4, legal .LSR .absx 7, bad]

/-- Row 6x of the opcode map (R91) with the cycle counts of R92. -/
def opcodeRow6 : List OpEntry :=
  [legal .RTS .impl 6, legal .ADC .indx 6, bad, bad,
   bad, legal .ADC .zp 3, legal .ROR .zp 5, bad,
   legal .PLA .impl 4, legal .ADC .imm 2, legal .ROR .acc 2, bad,
   legal .JMP .ind 5, legal .ADC .abs 4, legal .ROR .abs 6, bad]

/-- Row 7x of the opcode map (R91) with the cycle counts of R92. -/
def opcodeRow7 : List OpEntry :=
  [legal .BVS .rel 2, legalX .ADC .indy 5, bad, bad,
   bad, legal .ADC .zpx 4, legal .ROR .zpx 6, bad,
   legal .SEI .impl 2, legalX .ADC .absy 4, bad, bad,
   bad, legalX .ADC .absx 4, legal .ROR .absx 7, bad]

/-- Row 8x of the opcode map (R91) with the cycle counts of R92. -/
def opcodeRow8 : List OpEntry :=
  [bad, legal .STA .indx 6, bad, bad,
   legal .STY .zp 3, legal .STA .zp 3, legal .STX .zp 3, bad,
   legal .DEY .impl 2, bad, legal .TXA .impl 2, bad,
   legal .STY .abs 4, legal .STA .abs 4, legal .STX .abs 4, bad]

/-- Row 9x of the opcode map (R91) with the cycle counts of R92. -/
def opcodeRow9 : List OpEntry :=
  [legal .BCC .rel 2, legal .STA .indy 6, bad, bad,
   legal .STY .zpx 4, legal .STA .zpx 4, legal .STX .zpy 4, bad,
   legal .TYA .impl 2, legal .STA .absy 5, legal .TXS .impl 2, bad,
   bad, legal .STA .absx 5, bad, bad]

/-- Row Ax of the opcode map (R91) with the cycle counts of R92. -/
def opcodeRowA : List OpEntry :=
  [legal .LDY .imm 2, legal .LDA .indx 6, legal .LDX .imm 2, bad,
   legal .LDY .zp 3, legal .LDA .zp 3, legal .LDX .zp 3, bad,
   legal .TAY .impl 2, legal .LDA .imm 2, legal .TAX .impl 2, bad,
   legal .LDY .abs 4, legal .LDA .abs 4, legal .LDX .abs 4, bad]

/-- Row Bx of the opcode map (R91) with the cycle counts of R92. -/
def opcodeRowB : List OpEntry :=
  [legal .BCS .rel 2, legalX .LDA .indy 5, bad, bad,
   legal .LDY .zpx 4, legal .LDA .zpx 4, legal .LDX .zpy 4, bad,
   legal .CLV .impl 2, legalX .LDA .absy 4, legal .TSX .impl 2, bad,
   legalX .LDY .absx 4, legalX .LDA .absx 4, legalX .LDX .absy 4, bad]

/-- Row Cx of the opcode map (R91) with the cycle counts of R92. -/
def opcodeRowC : List OpEntry :=
  [legal .CPY .imm 2, legal .CMP .indx 6, bad, bad,
   legal .CPY .zp 3, legal .CMP .zp 3, legal .DEC .zp 5, bad,
   legal .INY .impl 2, legal .CMP .imm 2, legal .DEX .impl 2, bad,
   legal .CPY .abs 4, legal .CMP .abs 4, legal .DEC .abs 6, bad]

/-- Row Dx of the opcode map (R91) with the cycle counts of R92. -/
def opcodeRowD : List OpEntry :=
  [legal .BNE .rel 2, legalX .CMP .indy 5, bad, bad,
   bad, legal .CMP .zpx 4, legal .DEC .zpx 6, bad,
   legal .CLD .impl 2, legalX .CMP .absy 4, bad, bad,
   bad, legalX .CMP .absx 4, legal .DEC .absx 7, bad]

/-- Row Ex of the opcode map (R91) with the cycle counts of R92. -/
def opcodeRowE : List OpEntry :=
  [legal .CPX .imm 2, legal .SBC .indx 6, bad, bad,
   legal .CPX .zp 3, legal .SBC .zp 3, legal .INC .zp 5, bad,
   legal .INX .impl 2, legal .SBC .imm 2, legal .NOP .impl 2, bad,
   legal .CPX .abs 4, legal .SBC .abs 4, legal .INC .abs 6, bad]

/-- Row Fx of the opcode map (R91) with the cycle counts of R92. -/
def opcodeRowF : List OpEntry :=
  [legal .BEQ .rel 2, legalX .SBC .indy 5, bad, bad,
   bad, legal .SBC .zpx 4, legal .INC .zpx 6, bad,
   legal .SED .impl 2, legalX .SBC .absy 4, bad, bad,
   bad, legalX .SBC .absx 4, legal .INC .absx 7, bad]

/-- The 256 entries, by opcode value. -/
def opcodeTable : List OpEntry :=
  opcodeRow0 ++ opcodeRow1 ++ opcodeRow2 ++ opcodeRow3 ++
  opcodeRow4 ++ opcodeRow5 ++ opcodeRow6 ++ opcodeRow7 ++
  opcodeRow8 ++ opcodeRow9 ++ opcodeRowA ++ opcodeRowB ++
  opcodeRowC ++ opcodeRowD ++ opcodeRowE ++ opcodeRowF

/-- `InstructionDefinition[op]` (R24, R73). -/
def opEntry (op : Byte) : OpEntry := opcodeTable.getD op.toNat bad

/-- How many operand bytes follow the opcode byte, by mode (R70, R71). -/
def Mode.operandBytes : Mode → Nat
  | .impl | .acc => 0
  | .imm | .zp | .zpx | .zpy | .indx | .indy | .rel => 1
  | .abs | .absx | .absy | .ind => 2

/-- The memory operand a mode makes of the operand bytes; none for a mode that names no byte in memory. -/
def memOf (m : Mode) (b1 b2 : Byte) : Option Mem :=
  match m with
  | .zp => some (.zp b1)
  | .zpx => some (.zpx b1)
  | .zpy => some (.zpy b1)
  | .abs => some (.abs (hiLo b2 b1))
  | .absx => some (.absx (hiLo b2 b1))
  | .absy => some (.absy (hiLo b2 b1))
  | .indx => some (.indx b1)
  | .indy => some (.indy b1)
  | .impl | .acc | .imm | .ind | .rel => none

/-- The read operand a mode makes of the operand bytes. -/
def srcOf (m : Mode) (b1 b2 : Byte) : Option Src :=
  match m with
  | .imm => some (.imm b1)
  | m => (memOf m b1 b2).map .mem

/-- The shift operand a mode makes of the operand bytes. -/
def rmwOf (m : Mode) (b1 b2 : Byte) : Option Rmw :=
  match m with
  | .acc => some .acc
  | m => (memOf m b1 b2).map .mem

/-- The jump operand a mode makes of the operand bytes. -/
def targetOf (m : Mode) (b1 b2 : Byte) : Option Target :=
  match m with
  | .abs => some (.abs (hiLo b2 b1))
  | .ind => some (.ind (hiLo b2 b1))
  | _ => none

/-- The instruction of a table entry with its operand bytes; none where the entry's kind has no such form. -/
def formOf (e : OpEntry) (b1 b2 : Byte) : Option Instr :=
  match e.kind with
  | .LDA => (srcOf e.mode b1 b2).map .lda
  | .LDX => (srcOf e.mode b1 b2).map .ldx
  | .LDY => (srcOf e.mode b1 b2).map .ldy
  | .STA => (memOf e.mode b1 b2).map .sta
  | .STX => (memOf e.mode b1 b2).map .stx
  | .STY => (memOf e.mode b1 b2).map .sty
  | .TAX => some .tax
  | .TAY => some .tay
  | .TXA => some .txa
  | .TYA => some .tya
  | .TSX => some .tsx
  | .TXS => some .txs
  | .PHA => some .pha
  | .PHP => some .php
  | .PLA => some .pla
  | .PLP => some .plp
  | .ADC => (srcOf e.mode b1 b2).map .adc
  | .SBC => (srcOf e.mode b1 b2).map .sbc
  | .CMP => (srcOf e.mode b1 b2).map .cmp
  | .CPX => (srcOf e.mode b1 b2).map .cpx
  | .CPY => (srcOf e.mode b1 b2).map .cpy
  | .AND => (srcOf e.mode b1 b2).map .and
  | .ORA => (srcOf e.mode b1 b2).map .ora
  | .EOR => (srcOf e.mode b1 b2).map .eor
  | .BIT => (memOf e.mode b1 b2).map .bit
  | .ASL => (rmwOf e.mode b1 b2).map .asl
  | .LSR => (rmwOf e.mode b1 b2).map .lsr
  | .ROL => (rmwOf e.mode b1 b2).map .rol
  | .ROR => (rmwOf e.mode b1 b2).map .ror
  | .INC => (memOf e.mode b1 b2).map .inc
  | .DEC => (memOf e.mode b1 b2).map .dec
  | .INX => some .inx
  | .INY => some .iny
  | .DEX => some .dex
  | .DEY => some .dey
  | .JMP => (targetOf e.mode b1 b2).map .jmp
  | .JSR => some (.jsr (hiLo b2 b1))
  | .RTS => some .rts
  | .BCC => some (.bcc b1)
  | .BCS => some (.bcs b1)
  | .BEQ => some (.beq b1)
  | .BNE => some (.bne b1)
  | .BMI => some (.bmi b1)
  | .BPL => some (.bpl b1)
  | .BVC => some (.bvc b1)
  | .BVS => some (.bvs b1)
  | .CLC => some .clc
  | .SEC => some .sec
  | .CLI => some .cli
  | .SEI => some .sei
  | .CLV => some .clv
  | .CLD => some .cld
  | .SED => some .sed
  | .NOP => some .nop
  | .BRK => some .brk
  | .RTI => some .rti
  | .ILLEGAL => none

/-- The instruction of an opcode byte and its operand bytes (R73). An opcode with no legal form is the illegal
instruction (R93); no other meaning is given to it. -/
def instrOf (op b1 b2 : Byte) : Instr := (formOf (opEntry op) b1 b2).getD (.illegal op)

/-- Why the decoder refuses a list of bytes: it ends before the instruction does. -/
inductive DecodeError where
  /-- No opcode byte. -/
  | empty
  /-- The operand bytes the opcode asks for are not all there. -/
  | truncated (op : Byte)
  deriving DecidableEq, Repr

/-- The decoder: the instruction at the head of a list of bytes, with the bytes after it (R70, R73, R95). -/
def decode : List Byte → Except DecodeError (Instr × List Byte)
  | [] => .error .empty
  | op :: rest =>
    match (opEntry op).mode.operandBytes, rest with
    | 0, rest => .ok (instrOf op 0 0, rest)
    | 1, b1 :: rest => .ok (instrOf op b1 0, rest)
    | 2, b1 :: b2 :: rest => .ok (instrOf op b1 b2, rest)
    | _, _ => .error (.truncated op)

/-- What the decoder reads from an instruction whose bits are `w`, numbered as the opcode table numbers them: byte 0
is at the lowest address; bits at or above `nbits` are 0 (the longest instruction has three bytes, R70). -/
def decodeTableWord (nbits w : Nat) : Option Instr :=
  match decode [tableByte nbits w 0, tableByte nbits w 1, tableByte nbits w 2] with
  | .ok (i, _) => some i
  | .error _ => none

/-- The opcode of a mnemonic and mode: the table of R92, cell by cell. -/
def opcode : Mnemonic → Mode → Option Byte
  | .LDA, .imm => some 0xA9 | .LDA, .zp => some 0xA5 | .LDA, .zpx => some 0xB5 | .LDA, .abs => some 0xAD
  | .LDA, .absx => some 0xBD | .LDA, .absy => some 0xB9 | .LDA, .indx => some 0xA1 | .LDA, .indy => some 0xB1
  | .LDX, .imm => some 0xA2 | .LDX, .zp => some 0xA6 | .LDX, .zpy => some 0xB6 | .LDX, .abs => some 0xAE
  | .LDX, .absy => some 0xBE
  | .LDY, .imm => some 0xA0 | .LDY, .zp => some 0xA4 | .LDY, .zpx => some 0xB4 | .LDY, .abs => some 0xAC
  | .LDY, .absx => some 0xBC
  | .STA, .zp => some 0x85 | .STA, .zpx => some 0x95 | .STA, .abs => some 0x8D | .STA, .absx => some 0x9D
  | .STA, .absy => some 0x99 | .STA, .indx => some 0x81 | .STA, .indy => some 0x91
  | .STX, .zp => some 0x86 | .STX, .zpy => some 0x96 | .STX, .abs => some 0x8E
  | .STY, .zp => some 0x84 | .STY, .zpx => some 0x94 | .STY, .abs => some 0x8C
  | .TAX, .impl => some 0xAA
  | .TAY, .impl => some 0xA8
  | .TXA, .impl => some 0x8A
  | .TYA, .impl => some 0x98
  | .TSX, .impl => some 0xBA
  | .TXS, .impl => some 0x9A
  | .PHA, .impl => some 0x48
  | .PHP, .impl => some 0x08
  | .PLA, .impl => some 0x68
  | .PLP, .impl => some 0x28
  | .ADC, .imm => some 0x69 | .ADC, .zp => some 0x65 | .ADC, .zpx => some 0x75 | .ADC, .abs => some 0x6D
  | .ADC, .absx => some 0x7D | .ADC, .absy => some 0x79 | .ADC, .indx => some 0x61 | .ADC, .indy => some 0x71
  | .SBC, .imm => some 0xE9 | .SBC, .zp => some 0xE5 | .SBC, .zpx => some 0xF5 | .SBC, .abs => some 0xED
  | .SBC, .absx => some 0xFD | .SBC, .absy => some 0xF9 | .SBC, .indx => some 0xE1 | .SBC, .indy => some 0xF1
  | .CMP, .imm => some 0xC9 | .CMP, .zp => some 0xC5 | .CMP, .zpx => some 0xD5 | .CMP, .abs => some 0xCD
  | .CMP, .absx => some 0xDD | .CMP, .absy => some 0xD9 | .CMP, .indx => some 0xC1 | .CMP, .indy => some 0xD1
  | .CPX, .imm => some 0xE0 | .CPX, .zp => some 0xE4 | .CPX, .abs => some 0xEC
  | .CPY, .imm => some 0xC0 | .CPY, .zp => some 0xC4 | .CPY, .abs => some 0xCC
  | .AND, .imm => some 0x29 | .AND, .zp => some 0x25 | .AND, .zpx => some 0x35 | .AND, .abs => some 0x2D
  | .AND, .absx => some 0x3D | .AND, .absy => some 0x39 | .AND, .indx => some 0x21 | .AND, .indy => some 0x31
  | .ORA, .imm => some 0x09 | .ORA, .zp => some 0x05 | .ORA, .zpx => some 0x15 | .ORA, .abs => some 0x0D
  | .ORA, .absx => some 0x1D | .ORA, .absy => some 0x19 | .ORA, .indx => some 0x01 | .ORA, .indy => some 0x11
  | .EOR, .imm => some 0x49 | .EOR, .zp => some 0x45 | .EOR, .zpx => some 0x55 | .EOR, .abs => some 0x4D
  | .EOR, .absx => some 0x5D | .EOR, .absy => some 0x59 | .EOR, .indx => some 0x41 | .EOR, .indy => some 0x51
  | .BIT, .zp => some 0x24 | .BIT, .abs => some 0x2C
  | .ASL, .acc => some 0x0A | .ASL, .zp => some 0x06 | .ASL, .zpx => some 0x16 | .ASL, .abs => some 0x0E
  | .ASL, .absx => some 0x1E
  | .LSR, .acc => some 0x4A | .LSR, .zp => some 0x46 | .LSR, .zpx => some 0x56 | .LSR, .abs => some 0x4E
  | .LSR, .absx => some 0x5E
  | .ROL, .acc => some 0x2A | .ROL, .zp => some 0x26 | .ROL, .zpx => some 0x36 | .ROL, .abs => some 0x2E
  | .ROL, .absx => some 0x3E
  | .ROR, .acc => some 0x6A | .ROR, .zp => some 0x66 | .ROR, .zpx => some 0x76 | .ROR, .abs => some 0x6E
  | .ROR, .absx => some 0x7E
  | .INC, .zp => some 0xE6 | .INC, .zpx => some 0xF6 | .INC, .abs => some 0xEE | .INC, .absx => some 0xFE
  | .DEC, .zp => some 0xC6 | .DEC, .zpx => some 0xD6 | .DEC, .abs => some 0xCE | .DEC, .absx => some 0xDE
  | .INX, .impl => some 0xE8
  | .INY, .impl => some 0xC8
  | .DEX, .impl => some 0xCA
  | .DEY, .impl => some 0x88
  | .JMP, .abs => some 0x4C | .JMP, .ind => some 0x6C
  | .JSR, .abs => some 0x20
  | .RTS, .impl => some 0x60
  | .BCC, .rel => some 0x90
  | .BCS, .rel => some 0xB0
  | .BEQ, .rel => some 0xF0
  | .BNE, .rel => some 0xD0
  | .BMI, .rel => some 0x30
  | .BPL, .rel => some 0x10
  | .BVC, .rel => some 0x50
  | .BVS, .rel => some 0x70
  | .CLC, .impl => some 0x18
  | .SEC, .impl => some 0x38
  | .CLI, .impl => some 0x58
  | .SEI, .impl => some 0x78
  | .CLV, .impl => some 0xB8
  | .CLD, .impl => some 0xD8
  | .SED, .impl => some 0xF8
  | .NOP, .impl => some 0xEA
  | .BRK, .impl => some 0x00
  | .RTI, .impl => some 0x40
  | _, _ => none

/-- The operand bytes of a memory operand, the low byte first (R70, R72). -/
def Mem.bytes : Mem → List Byte
  | .zp b | .zpx b | .zpy b | .indx b | .indy b => [b]
  | .abs w | .absx w | .absy w => [lo8 w, hi8 w]

/-- The operand bytes of a read operand. -/
def Src.bytes : Src → List Byte
  | .imm v => [v]
  | .mem m => m.bytes

/-- The operand bytes of a shift operand. -/
def Rmw.bytes : Rmw → List Byte
  | .acc => []
  | .mem m => m.bytes

/-- The operand bytes of a jump operand. -/
def Target.bytes : Target → List Byte
  | .abs w | .ind w => [lo8 w, hi8 w]

/-- The operand bytes of an instruction. -/
def Instr.operandBytes : Instr → List Byte
  | .lda o | .ldx o | .ldy o | .adc o | .sbc o | .cmp o | .cpx o | .cpy o | .and o | .ora o | .eor o => o.bytes
  | .sta m | .stx m | .sty m | .bit m | .inc m | .dec m => m.bytes
  | .asl o | .lsr o | .rol o | .ror o => o.bytes
  | .jmp t => t.bytes
  | .jsr w => [lo8 w, hi8 w]
  | .bcc off | .bcs off | .beq off | .bne off | .bmi off | .bpl off | .bvc off | .bvs off => [off]
  | .tax | .tay | .txa | .tya | .tsx | .txs | .pha | .php | .pla | .plp
  | .inx | .iny | .dex | .dey | .rts
  | .clc | .sec | .cli | .sei | .clv | .cld | .sed | .nop | .brk | .rti | .illegal _ => []

/-- The opcode byte of an instruction; none for a form the instruction set does not have. -/
def Instr.opcode (i : Instr) : Option Byte :=
  match i with
  | .illegal op => some op
  | i => Sys2Proof.opcode i.mnemonic i.mode

/-- The encoder: the bytes of a well-formed instruction at ascending addresses (R70, R72); a form without an opcode
has none. -/
def encode (i : Instr) : List Byte :=
  match i.opcode with
  | some op => op :: i.operandBytes
  | none => []

end Sys2Proof
end

