-- ==== Sys2Proof/Config.lean ====
section
/-! DEFINITION. What an installation fixes (R6) and the free values: constants without a body for what the spec leaves
open (93_implementation_defined.md section 1), so that no proof can see what they are. -/

namespace Sys2Proof

/-- The nametable mirroring mode, supplied by the cartridge (R6, R59). -/
inductive Mirroring where
  | horizontal | vertical | singleScreen | fourScreen
  deriving DecidableEq, Repr, Inhabited

/-- The memories of a cartridge: the "memoryKind" of the mapper contract (R52). -/
inductive MemoryKind where
  | prgRom | prgRam | chrRom | chrRam
  deriving DecidableEq, Repr, Inhabited

/-- Which mapper the cartridge has: the reference mapper of R52 (D32), or any other, known by a number and
described by the uninterpreted functions below. -/
inductive MapperKind where
  | flatRom
  | other (id : Nat)
  deriving DecidableEq, Repr

/-- What a mapper other than FlatROM does with a register write (R51, R52, R221, R222): its new private state, the
mirroring mode it now supplies, and whether it requests IRQ. -/
structure MapperReaction where
  priv : Nat
  mirroring : Mirroring
  irq : Bool
  deriving DecidableEq, Repr, Inhabited

/-- NTSC or PAL; only NTSC is specified (R6, R305). -/
inductive TimingMode where
  | ntsc | pal
  deriving DecidableEq, Repr

/-- PPU cycles per master tick (R6, R302). -/
def Config.ppuPerCpu : Nat := 3

/-- Scanlines per frame (R6, R261). -/
def Config.scanlines : Nat := 262

/-- PPU cycles per scanline (R6, R261). -/
def Config.cyclesPerScanline : Nat := 341

/-- The byte an unlisted PRG ROM offset holds: the filler of 95_test_vectors.md ("every PRG byte not listed equal
to FF"). DESIGN CHOICE, log entry 3, unsafe. -/
def Config.prgFiller : Byte := 0xFF

/-- RAM_INIT (R6, R27, R323, U2): the unspecified contents of RAM after the reset numbered by the first argument, at
the offset in the second. Free value, log entry 4. -/
opaque Config.ramInit : Nat → Nat → Byte

/-- VRAM_INIT (R6, R25, U3). Free value, log entry 4. -/
opaque Config.vramInit : Nat → Nat → Byte

/-- OAM_INIT (R6, R25, U3). Free value, log entry 4. -/
opaque Config.oamInit : Nat → Nat → Byte

/-- PALETTE_INIT (R6, R25, U3). Free value, log entry 4. -/
opaque Config.paletteInit : Nat → Nat → Byte

/-- The contents of secondary OAM where no rule gives them (R25, R264, U3, U4): a byte for each reset, frame, scanline,
cycle and index, in this order, so that no two PPU cycles share one. Free value, log entry 5. -/
opaque Config.secondaryOam : Nat → Nat → Nat → Nat → Nat → Byte

/-- ApuIoRead (R6, R48, U6): the byte a read of the APU/IO block returns, by the draw counter and the address.
Free value, log entry 6. -/
opaque Config.apuIoRead : Nat → Word → Byte

/-- The byte a read of a write-only PPU register returns (R283, U8), by the draw counter. Free value, log entry 6. -/
opaque Config.writeOnlyRead : Nat → Byte

/-- The byte a read returns where the mapper maps no memory (R51, R52, U10), by the draw counter.
Free value, log entry 6. -/
opaque Config.unmappedRead : Nat → Byte

/-- SPRITE_FLAGS (R6, R272, U5): which of PPUSTATUS bits 6 and 5 become 1, by the draw counter (bit 1 is status bit 6,
bit 0 is status bit 5). Free value, log entry 6. -/
opaque Config.spriteFlags : Nat → BitVec 2

/-- The contents of a cartridge memory at an offset nothing lists (R27: "their contents are a parameter of the
model"); PRG ROM has `Config.prgFiller` instead. Free value, log entry 8. -/
opaque Config.cartInit : MemoryKind → Nat → Byte

/-- `mapCpuAddress` of a mapper other than FlatROM, by its number and private state (R52). Free value, log entry 7. -/
opaque Config.mapCpuAddress : Nat → Nat → Word → Option (Nat × MemoryKind)

/-- `mapPpuAddress` of a mapper other than FlatROM, by its number and private state (R52). Free value, log entry 7. -/
opaque Config.mapPpuAddress : Nat → Nat → Nat → Option (Nat × MemoryKind)

/-- `writeRegister` of a mapper other than FlatROM, by its number, private state and present mirroring (R52).
Free value, log entry 7. -/
opaque Config.mapperWrite : Nat → Nat → Mirroring → Word → Byte → MapperReaction

/-- `reset` of a mapper other than FlatROM: its private state after reset (R30, R52). Free value, log entry 7. -/
opaque Config.mapperReset : Nat → Nat → Nat

/-- The mirroring mode a mapper other than FlatROM supplies after its `reset` (R30, R52). Free value, log entry 7. -/
opaque Config.mapperResetMirroring : Nat → Nat → Mirroring → Mirroring

end Sys2Proof
end

