-- ==== Sys2Proof/Machine/State.lean ====
section
/-! DEFINITION. The state of the machine as plain data (R10, R25, R26, R27), the reasons a step can stop, and the state
right after reset (R30, R320). INVENTORY.md lists every field with its rule and reset value. -/

namespace Sys2Proof.Machine

/-- A memory: its listed cells, addresses strictly rising. What an unlisted address reads as is said by the operation
that reads the memory (R27, R323; log entries 3, 4, 5, 8). -/
abbrev Memory := List Host.Cell

/-- The interrupt kinds of the pending latch (R22, R220). -/
inductive InterruptKind where
  | nmi | irq | reset
  deriving DecidableEq, Repr

/-- The pending latch: "a bitset of pending interrupts (NMI, IRQ, Reset)" (R10, R22). -/
structure Pending where
  nmi : Bool
  irq : Bool
  reset : Bool
  deriving DecidableEq, Repr

/-- What is being executed between the fetch cycle and the effect step (R19): an entry of the instruction table, named
by its opcode (log entry 2), or an accepted interrupt. -/
inductive Current where
  | instr (op : Byte)
  | nmi
  | irq
  deriving DecidableEq, Repr

/-- PpuState (R25). -/
structure Ppu where
  /-- PPUCTRL (R275). -/
  ctrl : Byte
  /-- PPUMASK (R276). -/
  mask : Byte
  /-- PPUSTATUS: bits 7 VBlank, 6 sprite-0 hit, 5 sprite overflow (R277). -/
  status : Byte
  /-- The OAM address latch (R278). -/
  oamAddr : Byte
  /-- The first PPUSCROLL byte (R280). -/
  scrollX : Byte
  /-- The second PPUSCROLL byte (R280). -/
  scrollY : Byte
  /-- The VRAM address (R281, R282). -/
  v : VAddr
  /-- The temporary address (R281). -/
  t : VAddr
  /-- The write toggle shared by PPUSCROLL and PPUADDR; false: the next write is the first of a pair (R280). -/
  w : Bool
  /-- The PPUDATA read buffer (R282). -/
  readBuffer : Byte
  /-- 0 to 261 (R261). -/
  scanline : Nat
  /-- 0 to 340 (R261). -/
  cycle : Nat
  /-- The frame counter (R270). -/
  frame : Nat
  /-- The odd-frame flag (R269, R270). -/
  oddFrame : Bool
  /-- 4096 bytes of nametable memory (R25, R59). -/
  vram : Memory
  /-- 256 bytes of object attribute memory (R25, R279). -/
  oam : Memory
  /-- 32 bytes of palette memory (R25, R60). -/
  palette : Memory
  /-- 32 bytes; an unlisted one holds the free value of the present position (R25, R264; `secondaryByte`, log
  entry 5). -/
  secondaryOam : Memory
  deriving DecidableEq, Repr

/-- The installed cartridge: a parameter of the machine (R6, R51, R52, R326). -/
structure Cartridge where
  mapper : MapperKind
  /-- Mapper-private state (R51, R66). -/
  priv : Nat
  mirroring : Mirroring
  prgRom : Memory
  prgRam : Memory
  chrRom : Memory
  chrRam : Memory
  deriving DecidableEq, Repr

/-- What the machine emits to the host and to the external APU/IO block; nothing of the machine reads it. -/
inductive Output where
  /-- The edge of R266. -/
  | vblankStarted
  /-- The edge of R268. -/
  | vblankEnded
  /-- The notification of R303: frame number and master cycle. -/
  | frameCompleted (frame masterCycle : Nat)
  /-- A write handed to the external APU/IO block (R48). -/
  | apuIoWrite (a : Word) (v : Byte)
  deriving DecidableEq, Repr

/-- The whole machine: CpuState (R10), RAM (R27), the cartridge (R52), PpuState (R25), TimingState (R26), and the
model's own fields. -/
structure State where
  -- CpuState (R10)
  a : Byte
  x : Byte
  y : Byte
  pc : Word
  sp : Byte
  p : Byte
  instructionCycle : Nat
  current : Option Current
  penaltyLeft : Nat
  totalCycles : Nat
  halted : Bool
  pending : Pending
  -- memories and devices
  ram : Memory
  cart : Cartridge
  ppu : Ppu
  -- TimingState (R26)
  masterCycle : Nat
  timingMode : TimingMode
  running : Bool
  dmaStall : Nat
  -- the model's own
  /-- How many free values have been drawn (draw(n), 00_scope.md section 6; log entry 6). -/
  draws : Nat
  /-- How many host resets there were: each leaves fresh unspecified memory contents (R323; log entry 4). -/
  memEpoch : Nat
  /-- The host's interrupt requests: after which master cycle, and which kind (R221, R326; log entry 9). -/
  inputs : List (Nat × InterruptKind)
  /-- What was emitted, the newest first (R260, R303, R48; log entry 10). -/
  outputs : List Output
  deriving DecidableEq, Repr

/-- The machine has no fault: "no memory fault, no alignment fault, no arithmetic trap, no privilege violation, no bus
error" (R220, R42). The halt on an illegal opcode is an ordinary next state (R93, R231). -/
inductive Fault where
  deriving DecidableEq, Repr

/-- Why a step gives no next state. -/
inductive Refusal where
  /-- Raised by an arm of `exec` whose instruction has no meaning yet; none is left. Safe. -/
  | notModelled (mnemonic : String)
  /-- Raised by a tick, and by `setTimingMode`, under PAL: "no rule of this spec applies under PAL" (R305, U12). Safe. -/
  | palTiming
  /-- Raised by `step` from a state whose sequencing fields no run produces (an instruction cycle past its base
  count), for which the spec refuses (U19); from every state with the invariant of Safety.lean it is not raised. Safe. -/
  | unreachableSequencing
  deriving DecidableEq, Repr

/-- What a meaning answers. -/
abbrev Out := Host.Outcome State Fault Refusal

/-- The PPU after reset (R25, R320); the memories list nothing (R323). -/
def Ppu.reset : Ppu where
  ctrl := 0x00
  mask := 0x00
  status := 0x80
  oamAddr := 0x00
  scrollX := 0x00
  scrollY := 0x00
  v := 0x0000
  t := 0x0000
  w := false
  readBuffer := 0x00
  scanline := 241
  cycle := 0
  frame := 0
  oddFrame := false
  vram := []
  oam := []
  palette := []
  secondaryOam := []

/-- No interrupt pending. -/
def Pending.none : Pending := ⟨false, false, false⟩

/-- The cartridge of `State.reset`: the spec's reference mapper FlatROM, mirroring horizontal (R52, D32), with no byte
listed. DESIGN CHOICE, log entry 3. -/
def Cartridge.flatRom : Cartridge where
  mapper := .flatRom
  priv := 0
  mirroring := .horizontal
  prgRom := []
  prgRam := []
  chrRom := []
  chrRam := []

/-- The machine right after reset (R30, R320). `pc` is the little-endian word at $FFFC (R321); with the cartridge of log
entry 3 both its bytes are the filler 0xFF. -/
def State.reset : State where
  a := 0x00
  x := 0x00
  y := 0x00
  pc := 0xFFFF
  sp := 0xFD
  p := 0x24
  instructionCycle := 0
  current := none
  penaltyLeft := 0
  totalCycles := 0
  halted := false
  pending := Pending.none
  ram := []
  cart := Cartridge.flatRom
  ppu := Ppu.reset
  masterCycle := 0
  timingMode := .ntsc
  running := false
  dmaStall := 0
  draws := 0
  memEpoch := 0
  inputs := []
  outputs := []

end Sys2Proof.Machine
end

