-- ==== Sys2Proof/Machine/Flags.lean ====
section
/-! DEFINITION. The processor status P (R15 to R18) and every flag computation: Z and N, the adder's carry and overflow,
the comparison, BIT, the shifts and rotates. -/

namespace Sys2Proof.Machine

/-- The flags of P by name (R15). -/
inductive Flag where
  | C | Z | I | D | B | U | V | N
  deriving DecidableEq, Repr

/-- The mask of a flag (R15). -/
def Flag.mask : Flag → Byte
  | .C => 0x01
  | .Z => 0x02
  | .I => 0x04
  | .D => 0x08
  | .B => 0x10
  | .U => 0x20
  | .V => 0x40
  | .N => 0x80

/-- `P.f` of a status byte. -/
def flag (f : Flag) (p : Byte) : Bool := p &&& f.mask != 0

/-- `P.f <- b` on a status byte. -/
def setFlag (f : Flag) (b : Bool) (p : Byte) : Byte := if b then p ||| f.mask else p &&& ~~~f.mask

/-- `SetZN(v)` (R17). -/
def setZN (v p : Byte) : Byte := setFlag .Z (v == 0) (setFlag .N (bitAt v 7) p)

/-- The status byte PHP and BRK push: Break and Unused forced to 1 (R121, R205). -/
def pushedBySoftware (p : Byte) : Byte := p ||| 0x30

/-- The status byte NMI and IRQ entry push: Break 0, Unused 1 (R226). -/
def pushedByInterrupt (p : Byte) : Byte := (p &&& 0xEF) ||| 0x20

/-- The status a pulled byte gives: Unused forced to 1 (R123, R206). -/
def pulledStatus (b : Byte) : Byte := b ||| 0x20

/-- A byte result with a carry and a signed overflow. -/
structure Sum where
  result : Byte
  carry : Bool
  overflow : Bool
  deriving DecidableEq, Repr

/-- The carry flag as a number. -/
def carryIn (p : Byte) : Nat := if flag .C p then 1 else 0

/-- ADC (R130): binary, whatever P.D holds (R136). -/
def addWithCarry (a m : Byte) (cin : Nat) : Sum :=
  let sum := a.toNat + m.toNat + cin
  let result := BitVec.ofNat 8 sum
  { result := result
    carry := decide (0xFF < sum)
    overflow := (~~~(a ^^^ m)) &&& (a ^^^ result) &&& 0x80 != 0 }

/-- SBC (R131): the sum with the operand's complement; carry 1 means no borrow; "the mirrored test" for overflow. -/
def subWithBorrow (a m : Byte) (cin : Nat) : Sum :=
  let sum := a.toNat + (m ^^^ 0xFF).toNat + cin
  let result := BitVec.ofNat 8 sum
  { result := result
    carry := decide (0xFF < sum)
    overflow := (a ^^^ m) &&& (a ^^^ result) &&& 0x80 != 0 }

/-- P after ADC or SBC: C, V, Z, N (R130, R131). -/
def setSumFlags (r : Sum) (p : Byte) : Byte :=
  setZN r.result (setFlag .V r.overflow (setFlag .C r.carry p))

/-- P after a compare of the register `r` with `m`: C unsigned no-borrow, Z and N of the difference, V kept
(R132 to R134). -/
def setCompare (r m p : Byte) : Byte := setZN (r - m) (setFlag .C (decide (m.toNat ≤ r.toNat)) p)

/-- P after BIT (R143): Z from the AND, V and N from the operand. -/
def setBitTest (a m p : Byte) : Byte :=
  setFlag .N (bitAt m 7) (setFlag .V (bitAt m 6) (setFlag .Z (a &&& m == 0) p))

/-- A shift or rotate: the new byte and the bit shifted out, which is the new carry. -/
structure Shifted where
  result : Byte
  carry : Bool
  deriving DecidableEq, Repr

/-- ASL (R151). -/
def shiftLeft (old : Byte) (_cin : Bool) : Shifted := ⟨old <<< 1, bitAt old 7⟩

/-- LSR (R152). -/
def shiftRight (old : Byte) (_cin : Bool) : Shifted := ⟨old >>> 1, bitAt old 0⟩

/-- ROL (R153). -/
def rotateLeft (old : Byte) (cin : Bool) : Shifted :=
  ⟨(old <<< 1) ||| (if cin then 0x01 else 0x00), bitAt old 7⟩

/-- ROR (R154). -/
def rotateRight (old : Byte) (cin : Bool) : Shifted :=
  ⟨(old >>> 1) ||| (if cin then 0x80 else 0x00), bitAt old 0⟩

/-- P after a shift or rotate: C, Z, N; V kept (R151 to R154). -/
def setShiftFlags (r : Shifted) (p : Byte) : Byte := setZN r.result (setFlag .C r.carry p)

end Sys2Proof.Machine
end

