-- ==== Sys2Proof/Machine/Memory.lean ====
section
/-! DEFINITION. Memories as lists of cells in one canonical form: look-up, write, and the form itself. -/

namespace Sys2Proof.Machine

/-- The listed byte at `k`, if any. -/
def Memory.find : Memory → Nat → Option Byte
  | [], _ => none
  | (a, b) :: m, k => if a = k then some b else Memory.find m k

/-- The list with the byte at `k` set, addresses kept rising. -/
def Memory.put : Memory → Nat → Byte → Memory
  | [], k, v => [(k, v)]
  | (a, b) :: m, k, v =>
    if k < a then (k, v) :: (a, b) :: m
    else if k = a then (k, v) :: m
    else (a, b) :: Memory.put m k v

/-- The list without the cell at `k`. -/
def Memory.drop : Memory → Nat → Memory
  | [], _ => []
  | (a, b) :: m, k => if a = k then m else (a, b) :: Memory.drop m k

/-- Write `v` at `k`. `blank` is what an unlisted address reads as: a byte, or no value; writing that byte removes the
entry. -/
def Memory.store (blank : Option Byte) (m : Memory) (k : Nat) (v : Byte) : Memory :=
  if blank = some v then Memory.drop m k else Memory.put m k v

/-- The addresses rise strictly, all above `lo` when given. -/
def Memory.risingFrom : Nat → Memory → Bool
  | _, [] => true
  | lo, (a, _) :: m => decide (lo ≤ a) && Memory.risingFrom (a + 1) m

/-- The canonical form: addresses strictly rising, no entry equal to what an unlisted address reads as. -/
def Memory.wf (blank : Option Byte) (m : Memory) : Bool :=
  Memory.risingFrom 0 m && m.all (fun c => blank != some c.2)

/-- Every listed address is below `n`. -/
def Memory.below (n : Nat) (m : Memory) : Bool := m.all (fun c => decide (c.1 < n))

end Sys2Proof.Machine
end

