-- ==== Sys2Proof/Machine/Mapper.lean ====
section
/-! DEFINITION. The interrupt latch, the cartridge behind the mapper contract (R51, R52), and the read and write of the
machine's own memories. -/

namespace Sys2Proof.Machine

/-- `requestInterrupt(kind)` on the latch: sets the bit, absorbs a repeat (R22, R221). -/
def Pending.request (q : Pending) : InterruptKind → Pending
  | .nmi => { q with nmi := true }
  | .irq => { q with irq := true }
  | .reset => { q with reset := true }

/-- `requestInterrupt(kind)`: sets `pending.kind` "and does nothing else" (R221). -/
def requestInterrupt (k : InterruptKind) (s : State) : State := { s with pending := s.pending.request k }

/-- Emit an output. -/
def emit (o : Output) (s : State) : State := { s with outputs := o :: s.outputs }

/-- The byte of internal RAM at an offset below 2048; an offset nothing has written reads as the free value RAM_INIT
(R27, R46, R323; log entry 4). -/
def ramByte (s : State) (k : Nat) : Byte := (s.ram.find k).getD (Config.ramInit s.memEpoch k)

/-- A write to internal RAM at an offset (R46). -/
def ramWrite (k : Nat) (v : Byte) (s : State) : State := { s with ram := s.ram.store none k v }

/-- The byte of VRAM at an offset below 4096 (R25, R59; log entry 4). -/
def vramByte (s : State) (k : Nat) : Byte := (s.ppu.vram.find k).getD (Config.vramInit s.memEpoch k)

/-- The byte of OAM at an index below 256 (R25, R279; log entry 4). -/
def oamByte (s : State) (k : Nat) : Byte := (s.ppu.oam.find k).getD (Config.oamInit s.memEpoch k)

/-- The byte of palette memory at an index below 32 (R25, R60; log entry 4). -/
def paletteByte (s : State) (k : Nat) : Byte := (s.ppu.palette.find k).getD (Config.paletteInit s.memEpoch k)

/-- The byte of secondary OAM at an index below 32 (R25, R264): 0xFF between the clear at cycle 64 and cycle 65; at every
other time any value, a free one for each PPU position (log entry 5). No rule reads it; a state capture does. -/
def secondaryByte (s : State) (k : Nat) : Byte :=
  (s.ppu.secondaryOam.find k).getD (Config.secondaryOam s.memEpoch s.ppu.frame s.ppu.scanline s.ppu.cycle k)

/-- `OAM[k] <- v`. -/
def oamWrite (k : Nat) (v : Byte) (s : State) : State :=
  { s with ppu := { s.ppu with oam := s.ppu.oam.store none k v } }

/-- What an unlisted PRG ROM offset reads as (log entry 3). -/
def prgBlank : Option Byte := some Config.prgFiller

/-- The byte of a cartridge memory at an offset (R51; log entries 3 and 8). -/
def cartByte (c : Cartridge) (off : Nat) : MemoryKind → Byte
  | .prgRom => (c.prgRom.find off).getD Config.prgFiller
  | .prgRam => (c.prgRam.find off).getD (Config.cartInit .prgRam off)
  | .chrRom => (c.chrRom.find off).getD (Config.cartInit .chrRom off)
  | .chrRam => (c.chrRam.find off).getD (Config.cartInit .chrRam off)

/-- A store to a cartridge memory: the two RAM kinds take the byte, the two ROM kinds do not change (R51). -/
def cartStore (c : Cartridge) (off : Nat) (v : Byte) : MemoryKind → Cartridge
  | .prgRom => c
  | .prgRam => { c with prgRam := c.prgRam.store none off v }
  | .chrRom => c
  | .chrRam => { c with chrRam := c.chrRam.store none off v }

/-- `mapCpuAddress` (R52): FlatROM maps $8000 to $FFFF to PRG ROM at `a - 0x8000` and nothing below (D32). -/
def mapCpuAddress (c : Cartridge) (a : Word) : Option (Nat × MemoryKind) :=
  match c.mapper with
  | .flatRom => if 0x8000 ≤ a.toNat then some (a.toNat - 0x8000, .prgRom) else none
  | .other id => Config.mapCpuAddress id c.priv a

/-- `mapPpuAddress` for a PPU address below $2000 (R52): FlatROM reads its CHR array at that address (D32). -/
def mapPpuAddress (c : Cartridge) (a : Nat) : Option (Nat × MemoryKind) :=
  match c.mapper with
  | .flatRom => some (a, .chrRom)
  | .other id => Config.mapPpuAddress id c.priv a

/-- The byte a mapper maps an address to; where it maps nothing, a drawn byte (R51, R52, U10; log entry 6). -/
def readMapped (at? : Option (Nat × MemoryKind)) (s : State) : Byte × State :=
  match at? with
  | some (off, kind) => (cartByte s.cart off kind, s)
  | none => (Config.unmappedRead s.draws, { s with draws := s.draws + 1 })

/-- `MapperCpuRead(a)` (R51). -/
def mapperCpuRead (a : Word) (s : State) : Byte × State := readMapped (mapCpuAddress s.cart a) s

/-- `MapperPpuRead(a)` (R56). -/
def mapperPpuRead (a : Nat) (s : State) : Byte × State := readMapped (mapPpuAddress s.cart a) s

/-- `writeRegister(a, v)` (R52): FlatROM ignores it (D32); another mapper may change its private state and mirroring
and request IRQ (R51, R222). -/
def mapperWriteRegister (a : Word) (v : Byte) (s : State) : State :=
  match s.cart.mapper with
  | .flatRom => s
  | .other id =>
    let r := Config.mapperWrite id s.cart.priv s.cart.mirroring a v
    let s' := { s with cart := { s.cart with priv := r.priv, mirroring := r.mirroring } }
    if r.irq then requestInterrupt .irq s' else s'

/-- `MapperCpuWrite(a, v)` (R51): `writeRegister`, then the store where the address names a writable memory
(in this order: log entry 7). -/
def mapperCpuWrite (a : Word) (v : Byte) (s : State) : State :=
  let s' := mapperWriteRegister a v s
  match mapCpuAddress s'.cart a with
  | some (off, kind) => { s' with cart := cartStore s'.cart off v kind }
  | none => s'

/-- `MapperPpuWrite(a, v)` (R57): "CHR RAM if the mapper has it; else no effect". -/
def mapperPpuWrite (a : Nat) (v : Byte) (s : State) : State :=
  match mapPpuAddress s.cart a with
  | some (off, .chrRam) => { s with cart := cartStore s.cart off v .chrRam }
  | some _ => s
  | none => s

/-- `Mapper.reset()` (R30, R320): mapper-private; FlatROM has no private state. -/
def mapperReset (c : Cartridge) : Cartridge :=
  match c.mapper with
  | .flatRom => c
  | .other id =>
    { c with priv := Config.mapperReset id c.priv, mirroring := Config.mapperResetMirroring id c.priv c.mirroring }

end Sys2Proof.Machine
end

