-- ==== Sys2Proof/Machine/Ppu.lean ====
section
/-! DEFINITION. The PPU: its address space (R56 to R60), its eight registers (R273 to R283), and its scanline and cycle
machine (R260 to R272). -/

namespace Sys2Proof.Machine

/-- `NtIndex(a)` (R59): where a nametable address lies in VRAM, by mirroring mode. -/
def ntIndex (m : Mirroring) (a : Nat) : Nat :=
  let o := a % 0x1000
  let n := o / 0x400
  let i := o % 0x400
  match m with
  | .horizontal => n / 2 * 0x400 + i
  | .vertical => n % 2 * 0x400 + i
  | .singleScreen => i
  | .fourScreen => o

/-- `PpuRead(a)` for a 14-bit PPU address (R56, R58). -/
def ppuRead (a : Nat) (s : State) : Byte × State :=
  if a ≤ 0x1FFF then mapperPpuRead a s
  else if a ≤ 0x3EFF then (vramByte s (ntIndex s.cart.mirroring a), s)
  else (paletteByte s (a % 0x20), s)

/-- `PpuWrite(a, v)` for a 14-bit PPU address (R57, R58). -/
def ppuWrite (a : Nat) (v : Byte) (s : State) : State :=
  if a ≤ 0x1FFF then mapperPpuWrite a v s
  else if a ≤ 0x3EFF then
    { s with ppu := { s.ppu with vram := s.ppu.vram.store none (ntIndex s.cart.mirroring a) v } }
  else { s with ppu := { s.ppu with palette := s.ppu.palette.store none (a % 0x20) v } }

/-- "NMI generation is enabled": PPUCTRL bit 7 (R275). -/
def nmiEnabled (ctrl : Byte) : Bool := bitAt ctrl 7

/-- The VBlank flag: PPUSTATUS bit 7 (R277). -/
def vblankFlag (status : Byte) : Bool := bitAt status 7

/-- "Rendering is enabled (background or sprites shown)": PPUMASK bit 3 or 4 (R276). -/
def rendering (mask : Byte) : Bool := bitAt mask 3 || bitAt mask 4

/-- What a PPUDATA access adds to the VRAM address: 1 or 32, by PPUCTRL bit 2 (R282). -/
def vramStep (ctrl : Byte) : VAddr := if bitAt ctrl 2 then 32 else 1

/-- `v <- (v + inc) & 0x7FFF` (R282). -/
def advanceV (s : State) : State := { s with ppu := { s.ppu with v := s.ppu.v + vramStep s.ppu.ctrl } }

/-- The PPU bus address of a PPUDATA access: `v & 0x3FFF` (R282). -/
def ppuDataAddr (s : State) : Nat := s.ppu.v.toNat % 0x4000

/-- A PPUCTRL write (R275): newly enabling NMI while VBlank is set raises an NMI edge at once. -/
def writePpuCtrl (val : Byte) (s : State) : State :=
  let s' := { s with ppu := { s.ppu with ctrl := val } }
  if !nmiEnabled s.ppu.ctrl && nmiEnabled val && vblankFlag s.ppu.status then requestInterrupt .nmi s' else s'

/-- A PPUMASK write (R276). -/
def writePpuMask (val : Byte) (s : State) : State := { s with ppu := { s.ppu with mask := val } }

/-- An OAMADDR write (R278). -/
def writeOamAddr (val : Byte) (s : State) : State := { s with ppu := { s.ppu with oamAddr := val } }

/-- An OAMDATA write (R279): store, then increment the address modulo 256. -/
def writeOamData (val : Byte) (s : State) : State :=
  let s' := oamWrite s.ppu.oamAddr.toNat val s
  { s' with ppu := { s'.ppu with oamAddr := s.ppu.oamAddr + 1 } }

/-- A PPUSCROLL write (R280). -/
def writePpuScroll (val : Byte) (s : State) : State :=
  if s.ppu.w then { s with ppu := { s.ppu with scrollY := val, w := false } }
  else { s with ppu := { s.ppu with scrollX := val, w := true } }

/-- A PPUADDR write (R281): the first sets the high byte of `t` with mask 0x3F, the second its low byte and loads `v`. -/
def writePpuAddr (val : Byte) (s : State) : State :=
  if s.ppu.w then
    let t := (s.ppu.t &&& 0x7F00) ||| val.setWidth 15
    { s with ppu := { s.ppu with t := t, v := t, w := false } }
  else
    let t := (s.ppu.t &&& 0x00FF) ||| ((val &&& 0x3F).setWidth 15 <<< 8)
    { s with ppu := { s.ppu with t := t, w := true } }

/-- A PPUDATA write (R282). -/
def writePpuData (val : Byte) (s : State) : State := advanceV (ppuWrite (ppuDataAddr s) val s)

/-- A PPUSTATUS read (R277): the flags, then VBlank and the write toggle are cleared. -/
def readPpuStatus (s : State) : Byte × State :=
  (s.ppu.status &&& 0xE0, { s with ppu := { s.ppu with status := s.ppu.status &&& 0x7F, w := false } })

/-- An OAMDATA read (R279): the address is unchanged. -/
def readOamData (s : State) : Byte × State := (oamByte s s.ppu.oamAddr.toNat, s)

/-- Put a byte into the PPUDATA read buffer. -/
def setReadBuffer (b : Byte) (s : State) : State := { s with ppu := { s.ppu with readBuffer := b } }

/-- A PPUDATA read (R282): below $3F00 the buffer is returned and refilled from `v`; palette bytes are returned at
once and the buffer takes the nametable byte underneath. -/
def readPpuData (s : State) : Byte × State :=
  let a := ppuDataAddr s
  if a ≤ 0x3EFF then
    let q := ppuRead a s
    (s.ppu.readBuffer, advanceV (setReadBuffer q.1 q.2))
  else
    let r := ppuRead a s
    let q := ppuRead (a - 0x1000) r.2
    (r.1, advanceV (setReadBuffer q.1 q.2))

/-- A read of a write-only register: any byte, no state of the machine changes (R283; log entry 6). -/
def readWriteOnly (s : State) : Byte × State := (Config.writeOnlyRead s.draws, { s with draws := s.draws + 1 })

/-- `PpuRegRead(n)` (R274). -/
def ppuRegRead (n : Nat) (s : State) : Byte × State :=
  match n with
  | 2 => readPpuStatus s
  | 4 => readOamData s
  | 7 => readPpuData s
  | _ => readWriteOnly s

/-- `PpuRegWrite(n, val)` (R274); a write to PPUSTATUS has no effect (R283). -/
def ppuRegWrite (n : Nat) (val : Byte) (s : State) : State :=
  match n with
  | 0 => writePpuCtrl val s
  | 1 => writePpuMask val s
  | 3 => writeOamAddr val s
  | 4 => writeOamData val s
  | 5 => writePpuScroll val s
  | 6 => writePpuAddr val s
  | 7 => writePpuData val s
  | _ => s

/-- Secondary OAM cleared: 32 bytes 0xFF (R264). -/
def clearedSecondary : Memory := (List.range 32).map (fun i => (i, 0xFF))

/-- Secondary OAM on a visible scanline: cleared at cycle 64; from cycle 65 on no byte is listed, so each holds the free
value of the present position (R264, U4; `secondaryByte`, log entry 5). -/
def secondaryStep (s : State) : State :=
  if s.ppu.cycle = 64 then { s with ppu := { s.ppu with secondaryOam := clearedSecondary } }
  else if s.ppu.cycle = 65 then { s with ppu := { s.ppu with secondaryOam := [] } }
  else s

/-- `SpriteFlagsStep()` (R272): with rendering enabled, either, both or neither of status bits 6 and 5 may become 1. -/
def spriteFlagsStep (s : State) : State :=
  if 1 ≤ s.ppu.cycle ∧ s.ppu.cycle ≤ 256 ∧ rendering s.ppu.mask = true then
    { s with
      draws := s.draws + 1
      ppu := { s.ppu with status := s.ppu.status ||| ((Config.spriteFlags s.draws).setWidth 8 <<< 5) } }
  else s

/-- The action at (241, 1) (R266): VBlank is set, and NMI requested if enabled. -/
def vblankStart (s : State) : State :=
  let s' := emit .vblankStarted { s with ppu := { s.ppu with status := s.ppu.status ||| 0x80 } }
  if nmiEnabled s.ppu.ctrl then requestInterrupt .nmi s' else s'

/-- The action at (261, 1) (R268): VBlank, sprite-0 hit and sprite overflow are cleared. -/
def vblankEnd (s : State) : State :=
  emit .vblankEnded { s with ppu := { s.ppu with status := s.ppu.status &&& 0x1F } }

/-- The action of the current position (R262 to R268). -/
def ppuAct (s : State) : State :=
  if s.ppu.scanline ≤ 239 then spriteFlagsStep (secondaryStep s)
  else if s.ppu.scanline = 241 ∧ s.ppu.cycle = 1 then vblankStart s
  else if s.ppu.scanline = 261 ∧ s.ppu.cycle = 1 then vblankEnd s
  else s

/-- The advance of the position (R262, R269, R270). -/
def Ppu.advance (q : Ppu) : Ppu :=
  if q.scanline = 261 ∧ q.cycle = 338 ∧ q.oddFrame = true ∧ rendering q.mask = true then { q with cycle := 340 }
  else if q.cycle = 340 then
    if q.scanline = 261 then
      { q with cycle := 0, scanline := 0, frame := q.frame + 1, oddFrame := !q.oddFrame }
    else { q with cycle := 0, scanline := q.scanline + 1 }
  else { q with cycle := q.cycle + 1 }

/-- `PpuCycle()` (R262): the action of the current position, then the advance. -/
def ppuCycle (s : State) : State :=
  let s' := ppuAct s
  { s' with ppu := s'.ppu.advance }

/-- `n` PPU cycles. -/
def ppuCycles : Nat → State → State
  | 0, s => s
  | n + 1, s => ppuCycles n (ppuCycle s)

/-- The PPU's part of a master tick (R301, R303): three cycles, then the frame notification if the frame changed. -/
def ppuTick (s : State) : State :=
  let s' := ppuCycles Config.ppuPerCpu s
  if s'.ppu.frame = s.ppu.frame then s' else emit (.frameCompleted s'.ppu.frame s'.masterCycle) s'

end Sys2Proof.Machine
end

