-- ==== Sys2Proof/Machine/Ops.lean ====
section
/-! DEFINITION. The CPU's named operations: the bus (R40 to R51), OAM DMA (R290), fetch, the stack (R14), taking an
exception and returning from one (R205, R206, R226), the CPU reset (R320). -/

namespace Sys2Proof.Machine

/-- A read of the external APU/IO block: any byte (R48 to R50; log entry 6). -/
def apuIoRead (a : Word) (s : State) : Byte × State := (Config.apuIoRead s.draws a, { s with draws := s.draws + 1 })

/-- A write handed to the external APU/IO block: no state of CPU, PPU, RAM or Timing Coordinator changes (R48). -/
def apuIoWrite (a : Word) (v : Byte) (s : State) : State := emit (.apuIoWrite a v) s

/-- `MemRead(a, 1)` (R44). -/
def busRead (a : Word) (s : State) : Byte × State :=
  if a.toNat ≤ 0x1FFF then (ramByte s (a.toNat % 0x800), s)
  else if a.toNat ≤ 0x3FFF then ppuRegRead (a.toNat % 8) s
  else if a.toNat ≤ 0x401F then apuIoRead a s
  else mapperCpuRead a s

/-- The copy loop of OAM DMA, from index `i`, `n` bytes (R290). -/
def oamDmaCopy (pg : Byte) : Nat → Nat → State → State
  | 0, _, s => s
  | n + 1, i, s =>
    let r := busRead (hiLo pg (BitVec.ofNat 8 i)) s
    oamDmaCopy pg n (i + 1) (oamWrite i r.1 r.2)

/-- `OamDma(val)` (R290, R291): 256 bytes from page `val` into OAM from index 0, then the CPU stall of 513 cycles, 514
when the cycle count is odd. -/
def oamDma (val : Byte) (s : State) : State :=
  let s' := oamDmaCopy val 256 0 s
  { s' with dmaStall := 513 + s.totalCycles % 2 }

/-- `MemWrite(a, 1, v)` (R45). -/
def busWrite (a : Word) (v : Byte) (s : State) : State :=
  if a.toNat ≤ 0x1FFF then ramWrite (a.toNat % 0x800) v s
  else if a.toNat ≤ 0x3FFF then ppuRegWrite (a.toNat % 8) v s
  else if a.toNat = 0x4014 then oamDma v s
  else if a.toNat ≤ 0x401F then apuIoWrite a v s
  else mapperCpuWrite a v s

/-- `MemRead(a, 2)` where a rule says so: low byte first (00_scope.md section 6). -/
def busReadWord (a b : Word) (s : State) : Word × State :=
  let lo := busRead a s
  let hi := busRead b lo.2
  (hiLo hi.1 lo.1, hi.2)

/-- `Fetch()`: the byte at PC, PC incremented modulo 2^16 (R12, R332). -/
def fetchByte (s : State) : Byte × State :=
  let r := busRead s.pc s
  (r.1, { r.2 with pc := s.pc + 1 })

/-- The address of a stack byte (R13). -/
def stackAddr (sp : Byte) : Word := 0x0100 + zext16 sp

/-- `Push(v)` (R14): store at SP, then decrement modulo 256. -/
def push (v : Byte) (s : State) : State :=
  let s' := busWrite (stackAddr s.sp) v s
  { s' with sp := s.sp - 1 }

/-- `Pull()` (R14): increment SP modulo 256, then read. -/
def pull (s : State) : Byte × State :=
  let s' := { s with sp := s.sp + 1 }
  busRead (stackAddr s'.sp) s'

/-- A 16-bit push: high byte, then low byte (R14). -/
def pushWord (w : Word) (s : State) : State := push (lo8 w) (push (hi8 w) s)

/-- A 16-bit pull: low byte, then high byte (R14). -/
def pullWord (s : State) : Word × State :=
  let lo := pull s
  let hi := pull lo.2
  (hiLo hi.1 lo.1, hi.2)

/-- The vectors (R67, R233). -/
def nmiVector : Word := 0xFFFA
def resetVector : Word := 0xFFFC
def irqVector : Word := 0xFFFE

/-- Load PC from a vector, low byte first (R233). -/
def loadVector (vec : Word) (s : State) : State :=
  let r := busReadWord vec (vec + 1) s
  { r.2 with pc := r.1 }

/-- Taking an exception, the one sequence of BRK, NMI and IRQ (R205, R226): push PC, high then low, push the status
byte, set Interrupt-disable, load PC from the vector. The caller says which status byte is pushed. -/
def takeException (status : Byte) (vec : Word) (s : State) : State :=
  let s1 := push status (pushWord s.pc s)
  loadVector vec { s1 with p := setFlag .I true s1.p }

/-- Returning from an exception (R206): P from the stack with Unused forced, then PC from the stack. -/
def returnFromException (s : State) : State :=
  let st := pull s
  let r := pullWord { st.2 with p := pulledStatus st.1 }
  { r.2 with pc := r.1 }

/-- `CpuReset()` (R320, R227): every CpuState field takes its reset value, PC is loaded from $FFFC, nothing is pushed. -/
def cpuReset (s : State) : State :=
  loadVector resetVector
    { s with
      a := 0x00, x := 0x00, y := 0x00, sp := 0xFD, p := 0x24
      halted := false, pending := Pending.none
      instructionCycle := 0, current := none, penaltyLeft := 0, totalCycles := 0 }

/-- `A <- v; SetZN(A)`. -/
def loadA (v : Byte) (s : State) : State := { s with a := v, p := setZN v s.p }

/-- `X <- v; SetZN(X)`. -/
def loadX (v : Byte) (s : State) : State := { s with x := v, p := setZN v s.p }

/-- `Y <- v; SetZN(Y)`. -/
def loadY (v : Byte) (s : State) : State := { s with y := v, p := setZN v s.p }

/-- Set one flag of P. -/
def putFlag (f : Flag) (b : Bool) (s : State) : State := { s with p := setFlag f b s.p }

end Sys2Proof.Machine
end

