-- ==== Sys2Proof/Machine/Operands.lean ====
section
/-! DEFINITION. The addressing modes (R74 to R86): effective addresses with their page crossing, and the read, write and
read-modify-write of an operand (R88, R150). They run when PC is already past the operand bytes, which the instruction
term holds (log entry 1). -/

namespace Sys2Proof.Machine

/-- An effective address and whether indexing changed its page. -/
structure Resolved where
  ea : Word
  crossed : Bool
  deriving DecidableEq, Repr

/-- `base` indexed by a register, modulo 2^16 (R81, R82, R85). -/
def indexed (base : Word) (i : Byte) : Resolved :=
  let ea := base + zext16 i
  ⟨ea, page ea != page base⟩

/-- An address that no index moves. -/
def plain (ea : Word) : Resolved := ⟨ea, false⟩

/-- The pointer at a zero-page address; its high byte wraps inside the zero page (R84, R85). -/
def zeroPagePointer (p : Byte) (s : State) : Word × State := busReadWord (zext16 p) (zext16 (p + 1)) s

/-- The effective address of a memory operand (R77 to R82, R84, R85). -/
def resolve (m : Mem) (s : State) : Resolved × State :=
  match m with
  | .zp b => (plain (zext16 b), s)
  | .zpx b => (plain (zext16 (b + s.x)), s)
  | .zpy b => (plain (zext16 (b + s.y)), s)
  | .abs w => (plain w, s)
  | .absx w => (indexed w s.x, s)
  | .absy w => (indexed w s.y, s)
  | .indx b =>
    let r := zeroPagePointer (b + s.x) s
    (plain r.1, r.2)
  | .indy b =>
    let r := zeroPagePointer b s
    (indexed r.1 s.y, r.2)

/-- The page-crossing cycle of a crossing-sensitive instruction (R87, R334). -/
def chargeCrossing (crossed : Bool) (s : State) : State := if crossed then { s with penaltyLeft := 1 } else s

/-- The byte an instruction that only reads takes from memory, with its page-crossing cycle (R87, R88). -/
def readMem (m : Mem) (s : State) : Byte × State :=
  let e := resolve m s
  let r := busRead e.1.ea e.2
  (r.1, chargeCrossing e.1.crossed r.2)

/-- The operand of a reading instruction: the immediate byte was read as the operand byte (R76). -/
def readSrc (o : Src) (s : State) : Byte × State :=
  match o with
  | .imm v => (v, s)
  | .mem m => readMem m s

/-- A store: the effective address is not read before it is written, and no crossing is charged (R87, R89, R103). -/
def writeMem (m : Mem) (v : Byte) (s : State) : State :=
  let e := resolve m s
  busWrite e.1.ea v e.2

/-- The read-modify-write pattern on memory (R150): one read, one write; `f` gives the new byte and the new P from the
old byte and P. -/
def modifyMem (m : Mem) (f : Byte → Byte → Byte × Byte) (s : State) : State :=
  let e := resolve m s
  let r := busRead e.1.ea e.2
  let n := f r.1 r.2.p
  busWrite e.1.ea n.1 { r.2 with p := n.2 }

/-- The read-modify-write pattern on the accumulator or memory (R150). -/
def modifyOperand (o : Rmw) (f : Byte → Byte → Byte × Byte) (s : State) : State :=
  match o with
  | .acc =>
    let n := f s.a s.p
    { s with a := n.1, p := n.2 }
  | .mem m => modifyMem m f s

/-- The target of JMP: absolute (R80), or indirect without a carry into the pointer's page (R83). -/
def jumpTarget (t : Target) (s : State) : Word × State :=
  match t with
  | .abs w => (w, s)
  | .ind ptr => busReadWord ptr (page ptr ||| ((ptr + 1) &&& 0x00FF)) s

/-- The target of a branch, from the PC after the offset byte (R86). -/
def branchTarget (pc : Word) (off : Byte) : Word := pc + sext16 off

end Sys2Proof.Machine
end

