-- ==== Sys2Proof/Machine/Arithmetic.lean ====
section
/-! DEFINITION. Arithmetic and compares: ADC, SBC, CMP, CPX, CPY (R130 to R136). -/

namespace Sys2Proof.Machine

/-- Write a sum to A with its flags. -/
def storeSum (r : Sum) (s : State) : State := { s with a := r.result, p := setSumFlags r s.p }

/-- ADC (R130). -/
def execAdc (o : Src) (s : State) : Out :=
  let m := readSrc o s
  .next (storeSum (addWithCarry m.2.a m.1 (carryIn m.2.p)) m.2)

/-- SBC (R131). -/
def execSbc (o : Src) (s : State) : Out :=
  let m := readSrc o s
  .next (storeSum (subWithBorrow m.2.a m.1 (carryIn m.2.p)) m.2)

/-- CMP (R132). -/
def execCmp (o : Src) (s : State) : Out :=
  let m := readSrc o s
  .next { m.2 with p := setCompare m.2.a m.1 m.2.p }

/-- CPX (R133). -/
def execCpx (o : Src) (s : State) : Out :=
  let m := readSrc o s
  .next { m.2 with p := setCompare m.2.x m.1 m.2.p }

/-- CPY (R134). -/
def execCpy (o : Src) (s : State) : Out :=
  let m := readSrc o s
  .next { m.2 with p := setCompare m.2.y m.1 m.2.p }

end Sys2Proof.Machine
end

