-- ==== Sys2Proof/Machine/Control.lean ====
section
/-! DEFINITION. Control transfer: JMP, JSR, RTS and the eight branches (R170 to R183). -/

namespace Sys2Proof.Machine

/-- JMP (R170, R171). -/
def execJmp (t : Target) (s : State) : Out :=
  let r := jumpTarget t s
  .next { r.2 with pc := r.1 }

/-- JSR (R172): pushes the address of its own last byte. -/
def execJsr (w : Word) (s : State) : Out :=
  let s' := pushWord (s.pc - 1) s
  .next { s' with pc := w }

/-- RTS (R173). -/
def execRts (s : State) : Out :=
  let r := pullWord s
  .next { r.2 with pc := r.1 + 1 }

/-- The common branch rule (R174): PC is at the next instruction; a taken branch costs one cycle, two into another
page. -/
def branch (cond : Bool) (off : Byte) (s : State) : State :=
  let target := branchTarget s.pc off
  if cond then { s with pc := target, penaltyLeft := if page target = page s.pc then 1 else 2 } else s

/-- BCC (R175). -/
def execBcc (off : Byte) (s : State) : Out := .next (branch (!flag .C s.p) off s)

/-- BCS (R176). -/
def execBcs (off : Byte) (s : State) : Out := .next (branch (flag .C s.p) off s)

/-- BEQ (R177). -/
def execBeq (off : Byte) (s : State) : Out := .next (branch (flag .Z s.p) off s)

/-- BNE (R178). -/
def execBne (off : Byte) (s : State) : Out := .next (branch (!flag .Z s.p) off s)

/-- BMI (R179). -/
def execBmi (off : Byte) (s : State) : Out := .next (branch (flag .N s.p) off s)

/-- BPL (R180). -/
def execBpl (off : Byte) (s : State) : Out := .next (branch (!flag .N s.p) off s)

/-- BVC (R181). -/
def execBvc (off : Byte) (s : State) : Out := .next (branch (!flag .V s.p) off s)

/-- BVS (R182). -/
def execBvs (off : Byte) (s : State) : Out := .next (branch (flag .V s.p) off s)

end Sys2Proof.Machine
end

