-- ==== Sys2Proof/Machine/FlagsSystem.lean ====
section
/-! DEFINITION. Flag instructions, NOP, BRK, RTI and the illegal opcodes (R190 to R207, R93). -/

namespace Sys2Proof.Machine

/-- CLC (R190). -/
def execClc (s : State) : Out := .next (putFlag .C false s)

/-- SEC (R191). -/
def execSec (s : State) : Out := .next (putFlag .C true s)

/-- CLI (R192). -/
def execCli (s : State) : Out := .next (putFlag .I false s)

/-- SEI (R193). -/
def execSei (s : State) : Out := .next (putFlag .I true s)

/-- CLV (R194). -/
def execClv (s : State) : Out := .next (putFlag .V false s)

/-- CLD (R195). -/
def execCld (s : State) : Out := .next (putFlag .D false s)

/-- SED (R196). -/
def execSed (s : State) : Out := .next (putFlag .D true s)

/-- NOP (R197): "Effect: none". -/
def execNop (s : State) : Out := .next s

/-- BRK (R205): PC past the signature byte, which is not read, then the exception sequence with Break pushed as 1. -/
def execBrk (s : State) : Out :=
  .next (takeException (pushedBySoftware s.p) irqVector { s with pc := s.pc + 1 })

/-- RTI (R206). -/
def execRti (s : State) : Out := .next (returnFromException s)

/-- An illegal opcode (R93, R231): the CPU halts; PC is already past the opcode byte and nothing else changes. -/
def execIllegal (_op : Byte) (s : State) : Out := .next { s with halted := true }

end Sys2Proof.Machine
end

