-- ==== Sys2Proof/Machine/LoadStore.lean ====
section
/-! DEFINITION. Loads and stores: LDA, LDX, LDY, STA, STX, STY (R100 to R106). -/

namespace Sys2Proof.Machine

/-- LDA (R100). -/
def execLda (o : Src) (s : State) : Out :=
  let m := readSrc o s
  .next (loadA m.1 m.2)

/-- LDX (R101). -/
def execLdx (o : Src) (s : State) : Out :=
  let m := readSrc o s
  .next (loadX m.1 m.2)

/-- LDY (R102). -/
def execLdy (o : Src) (s : State) : Out :=
  let m := readSrc o s
  .next (loadY m.1 m.2)

/-- STA (R103). -/
def execSta (m : Mem) (s : State) : Out := .next (writeMem m s.a s)

/-- STX (R104). -/
def execStx (m : Mem) (s : State) : Out := .next (writeMem m s.x s)

/-- STY (R105). -/
def execSty (m : Mem) (s : State) : Out := .next (writeMem m s.y s)

end Sys2Proof.Machine
end

