-- ==== Sys2Proof/Machine/Logic.lean ====
section
/-! DEFINITION. Logic and bit test: AND, ORA, EOR, BIT (R140 to R143). -/

namespace Sys2Proof.Machine

/-- AND (R140). -/
def execAnd (o : Src) (s : State) : Out :=
  let m := readSrc o s
  .next (loadA (m.2.a &&& m.1) m.2)

/-- ORA (R141). -/
def execOra (o : Src) (s : State) : Out :=
  let m := readSrc o s
  .next (loadA (m.2.a ||| m.1) m.2)

/-- EOR (R142). -/
def execEor (o : Src) (s : State) : Out :=
  let m := readSrc o s
  .next (loadA (m.2.a ^^^ m.1) m.2)

/-- BIT (R143): A unchanged, nothing written to memory. -/
def execBit (m : Mem) (s : State) : Out :=
  let r := readMem m s
  .next { r.2 with p := setBitTest r.2.a r.1 r.2.p }

end Sys2Proof.Machine
end

