-- ==== Sys2Proof/Machine/ShiftIncDec.lean ====
section
/-! DEFINITION. Shifts, rotates, increments and decrements: ASL, LSR, ROL, ROR, INC, DEC, INX, INY, DEX, DEY (R150 to R161). -/

namespace Sys2Proof.Machine

/-- A shift or rotate as a read-modify-write function: the new byte and the new P (R150). -/
def shiftStep (f : Byte → Bool → Shifted) (old p : Byte) : Byte × Byte :=
  let r := f old (flag .C p)
  (r.result, setShiftFlags r p)

/-- INC's and DEC's function: the new byte, Z and N; C and V kept (R155, R156). -/
def countStep (delta old p : Byte) : Byte × Byte := (old + delta, setZN (old + delta) p)

/-- ASL (R151). -/
def execAsl (o : Rmw) (s : State) : Out := .next (modifyOperand o (shiftStep shiftLeft) s)

/-- LSR (R152). -/
def execLsr (o : Rmw) (s : State) : Out := .next (modifyOperand o (shiftStep shiftRight) s)

/-- ROL (R153). -/
def execRol (o : Rmw) (s : State) : Out := .next (modifyOperand o (shiftStep rotateLeft) s)

/-- ROR (R154). -/
def execRor (o : Rmw) (s : State) : Out := .next (modifyOperand o (shiftStep rotateRight) s)

/-- INC (R155). -/
def execInc (m : Mem) (s : State) : Out := .next (modifyMem m (countStep 0x01) s)

/-- DEC (R156). -/
def execDec (m : Mem) (s : State) : Out := .next (modifyMem m (countStep 0xFF) s)

/-- INX (R157). -/
def execInx (s : State) : Out := .next (loadX (s.x + 1) s)

/-- INY (R158). -/
def execIny (s : State) : Out := .next (loadY (s.y + 1) s)

/-- DEX (R159). -/
def execDex (s : State) : Out := .next (loadX (s.x - 1) s)

/-- DEY (R160). -/
def execDey (s : State) : Out := .next (loadY (s.y - 1) s)

end Sys2Proof.Machine
end

