-- ==== Sys2Proof/Machine/TransferStack.lean ====
section
/-! DEFINITION. Register transfers and stack: TAX, TAY, TXA, TYA, TSX, TXS, PHA, PHP, PLA, PLP (R110 to R124). -/

namespace Sys2Proof.Machine

/-- TAX (R110). -/
def execTax (s : State) : Out := .next (loadX s.a s)

/-- TAY (R111). -/
def execTay (s : State) : Out := .next (loadY s.a s)

/-- TXA (R112). -/
def execTxa (s : State) : Out := .next (loadA s.x s)

/-- TYA (R113). -/
def execTya (s : State) : Out := .next (loadA s.y s)

/-- TSX (R114). -/
def execTsx (s : State) : Out := .next (loadX s.sp s)

/-- TXS (R115): no flag. -/
def execTxs (s : State) : Out := .next { s with sp := s.x }

/-- PHA (R120). -/
def execPha (s : State) : Out := .next (push s.a s)

/-- PHP (R121): Break and Unused pushed as 1, P unchanged. -/
def execPhp (s : State) : Out := .next (push (pushedBySoftware s.p) s)

/-- PLA (R122). -/
def execPla (s : State) : Out :=
  let r := pull s
  .next (loadA r.1 r.2)

/-- PLP (R123): Unused forced to 1. -/
def execPlp (s : State) : Out :=
  let r := pull s
  .next { r.2 with p := pulledStatus r.1 }

end Sys2Proof.Machine
end

