-- ==== Sys2Proof/Machine/Cycle.lean ====
section
/-! DEFINITION. The CPU cycle machine (R330 to R337), the master tick (R301) and the run to the next instruction
boundary (R331). -/

namespace Sys2Proof.Machine

/-- Go on from an outcome. -/
def andThen (o : Out) (f : State → Out) : Out :=
  match o with
  | .next s => f s
  | .fault r => .fault r
  | .refused r => .refused r

/-- The operand bytes at PC, at ascending addresses, PC advanced past them (R88, R334); a byte the instruction does not
have is given as 0. -/
def fetchOperands (n : Nat) (s : State) : (Byte × Byte) × State :=
  match n with
  | 0 => ((0, 0), s)
  | 1 =>
    let b1 := fetchByte s
    ((b1.1, 0), b1.2)
  | _ =>
    let b1 := fetchByte s
    let b2 := fetchByte b1.2
    ((b1.1, b2.1), b2.2)

/-- The effect step (R334): the operand bytes are read, `instructionCycle`, `current` and the penalty are cleared, and
the instruction takes effect; a meaning sets `penaltyLeft` where its rule charges a penalty. -/
def effectStep (op : Byte) (s : State) : Out :=
  let r := fetchOperands (opEntry op).mode.operandBytes s
  exec (instrOf op r.1.1 r.1.2) { r.2 with instructionCycle := 0, current := none, penaltyLeft := 0 }

/-- The entry sequence of an accepted NMI (R226). -/
def nmiEntry (s : State) : State := takeException (pushedByInterrupt s.p) nmiVector s

/-- The entry sequence of an accepted IRQ (R226). -/
def irqEntry (s : State) : State := takeException (pushedByInterrupt s.p) irqVector s

/-- The cycles of an interrupt entry (R337). -/
def entryCycles : Nat := 7

/-- Accepting an NMI, cycle 1 of its entry; it wakes a halted CPU (R225, R336, R337). -/
def acceptNmi (s : State) : State :=
  { s with halted := false, pending := { s.pending with nmi := false }, current := some .nmi, instructionCycle := 1 }

/-- Accepting an IRQ, cycle 1 of its entry (R224, R337). -/
def acceptIrq (s : State) : State :=
  { s with pending := { s.pending with irq := false }, current := some .irq, instructionCycle := 1 }

/-- The fetch cycle (R332): a legal opcode is latched in `current`; an illegal one takes its effect, the halt, at once
(R93). -/
def fetchCycle (s : State) : Out :=
  let r := fetchByte s
  if (opEntry r.1).legal then .next { r.2 with current := some (.instr r.1), instructionCycle := 1 }
  else exec (.illegal r.1) r.2

/-- An instruction boundary (R223, R228, R331): NMI, then IRQ if P.I is clear, then Reset, else the opcode fetch. -/
def boundaryCycle (s : State) : Out :=
  if s.pending.nmi then .next (acceptNmi s)
  else if s.pending.irq && !flag .I s.p then .next (acceptIrq s)
  else if s.pending.reset then .next (cpuReset s)
  else fetchCycle s

/-- A cycle inside an interrupt entry or an instruction (R333, R334, R337). -/
def innerCycle (s : State) : Out :=
  let s' := { s with instructionCycle := s.instructionCycle + 1 }
  match s'.current with
  | some .nmi =>
    if s'.instructionCycle = entryCycles then .next { nmiEntry s' with instructionCycle := 0, current := none }
    else .next s'
  | some .irq =>
    if s'.instructionCycle = entryCycles then .next { irqEntry s' with instructionCycle := 0, current := none }
    else .next s'
  | some (.instr op) => if s'.instructionCycle = (opEntry op).base then effectStep op s' else .next s'
  | none => .next s'

/-- `CpuCycle()` (R330). -/
def cpuCycle (s : State) : Out :=
  let s1 := { s with totalCycles := s.totalCycles + 1 }
  if s1.halted then .next (if s1.pending.nmi then acceptNmi s1 else s1)
  else if 0 < s1.penaltyLeft then .next { s1 with penaltyLeft := s1.penaltyLeft - 1 }
  else if s1.instructionCycle = 0 then boundaryCycle s1
  else innerCycle s1

/-- The host's requests whose time has come are made, between two ticks (R221, R326; log entry 9). -/
def deliverInputs (s : State) : State :=
  { s with
    pending := s.inputs.foldl (fun q e => if e.1 ≤ s.masterCycle then q.request e.2 else q) s.pending
    inputs := s.inputs.filter (fun e => decide (s.masterCycle < e.1)) }

/-- The CPU's part of a master tick: a cycle of DMA stall, or a CPU cycle (R291, R301). -/
def cpuTick (s : State) : Out :=
  if 0 < s.dmaStall then .next { s with dmaStall := s.dmaStall - 1 } else cpuCycle s

/-- `Tick()` (R301): the master cycle, the CPU, then three PPU cycles. PAL is refused (R305). -/
def tick (s : State) : Out :=
  match s.timingMode with
  | .pal => .refused .palTiming
  | .ntsc =>
    let s0 := deliverInputs s
    andThen (cpuTick { s0 with masterCycle := s0.masterCycle + 1 }) (fun s1 => .next (ppuTick s1))

/-- The next CPU cycle starts an instruction, accepts an interrupt, or is a halted cycle, and no stall is left (R331). -/
def settled (s : State) : Bool := s.instructionCycle == 0 && s.penaltyLeft == 0 && s.dmaStall == 0

/-- Ticks until settled, at most `n` (log entry 1). -/
def settle : Nat → State → Out
  | 0, _ => .refused .unreachableSequencing
  | n + 1, s => if settled s then .next s else andThen (tick s) (settle n)

/-- More ticks than any reachable state needs to be settled after one tick: a stall, the rest of an instruction, a
second stall of at most 514 cycles, two penalty cycles. -/
def settleFuel (s : State) : Nat := s.dmaStall + s.penaltyLeft + 600

/-- One instruction, interrupt entry, pending reset or halted cycle: ticks from here to the next settled state, at
least one (R331, log entry 1). -/
def runToBoundary (s : State) : Out := andThen (tick s) (settle (settleFuel s))

end Sys2Proof.Machine
end

