-- ==== Sys2Proof/Machine/HostOps.lean ====
section
/-! DEFINITION. What the host does between ticks (R320 to R326), and how the bytes of an instruction are placed where the
next fetch reads them. -/

namespace Sys2Proof.Machine

/-- `Reset()` (R320): the mapper first, then the PPU, the memories (unspecified contents, R323), the Timing Coordinator,
and the CPU last. -/
def hostReset (s : State) : State :=
  cpuReset
    { s with
      cart := mapperReset s.cart
      ppu := Ppu.reset
      ram := []
      memEpoch := s.memEpoch + 1
      masterCycle := 0
      dmaStall := 0
      timingMode := .ntsc
      inputs := []
      outputs := [] }

/-- `executeCycles(n)` (R304): `n` ticks in sequence. -/
def executeCycles : Nat → State → Out
  | 0, s => .next s
  | n + 1, s => andThen (tick s) (executeCycles n)

/-- `setTimingMode` (R305, R326): PAL is refused. -/
def setTimingMode (m : TimingMode) (s : State) : Out :=
  match m with
  | .ntsc => .next { s with timingMode := .ntsc }
  | .pal => .refused .palTiming

/-- Installing a cartridge, before `Reset()` (R326). What ticks do when it is installed on a machine already reset and no
`Reset()` follows the spec leaves open: here the cartridge alone is replaced, and ticks go on with it, not refused. DESIGN
CHOICE, log entry 16, unsafe. -/
def installCartridge (c : Cartridge) (s : State) : State := { s with cart := c }

/-- Starting or stopping to drive ticks: host bookkeeping that no rule reads (R26, R306). -/
def setRunning (b : Bool) (s : State) : State := { s with running := b }

/-- Whether three bytes from `a` on can be placed: in RAM, or in FlatROM's PRG array (an address past $FFFF is in RAM). -/
def placeable (c : Cartridge) (a : Word) : Bool :=
  decide (a.toNat ≤ 0x1FFD) || (decide (0x8000 ≤ a.toNat) && c.mapper == .flatRom)

/-- Place a byte of program at an address in RAM or in PRG ROM. -/
def placeByte (a : Word) (v : Byte) (s : State) : State :=
  if a.toNat ≤ 0x1FFF then ramWrite (a.toNat % 0x800) v s
  else { s with cart := { s.cart with prgRom := s.cart.prgRom.store prgBlank (a.toNat - 0x8000) v } }

/-- Where the bytes go: at PC where they can be placed, else in RAM at $0200. -/
def codeHome (s : State) : Word := if placeable s.cart s.pc then s.pc else 0x0200

/-- The state brought to an instruction boundary at `pc` with nothing to accept, so that its next tick fetches. -/
def readyAt (pc : Word) (s : State) : State :=
  { s with
    pc := pc
    instructionCycle := 0
    current := none
    penaltyLeft := 0
    dmaStall := 0
    halted := false
    pending := Pending.none
    timingMode := .ntsc
    inputs := s.inputs.filter (fun e => decide (s.masterCycle < e.1)) }

/-- The instruction whose bits are `w` placed where the next fetch reads it (log entry 3). -/
def placeInstruction (nbits w : Nat) (s : State) : State :=
  let a := codeHome s
  placeByte (a + 2) (tableByte nbits w 2)
    (placeByte (a + 1) (tableByte nbits w 1) (placeByte a (tableByte nbits w 0) (readyAt a s)))

end Sys2Proof.Machine
end

