-- ==== Sys2Proof/Machine/Step.lean ====
section
/-! DEFINITION. One step of the machine, and a state with an instruction placed where the step fetches it. -/

namespace Sys2Proof.Machine

/-- One step: master ticks from this state to the next settled state (R301, R331; log entry 1). -/
def step : State → Host.Outcome State Fault Refusal := fun s => runToBoundary s

/-- `s` with the instruction whose bits are `w` stored where `step` fetches its next instruction (log entry 3). -/
def State.withFetchWord (s : State) (nbits w : Nat) : State := placeInstruction nbits w s

end Sys2Proof.Machine
end

