-- ==== Sys2Proof/Safety.lean ====
section
/-! DEFINITION. The terms claims use: the invariant of reachable states, and what two states share. -/

namespace Sys2Proof.Machine

/-- The PPU's invariant: positions in range (R25), only bits 7, 6, 5 of the status (R25, R277), bit 14 of `t` clear
(R281), odd frames counted (R269), memories canonical and inside their sizes (R25). -/
structure Ppu.Inv (q : Ppu) : Prop where
  scanline_le : q.scanline ≤ 261
  cycle_le : q.cycle ≤ 340
  status_low : q.status &&& 0x1F = 0
  t_low : q.t &&& 0x4000 = 0
  odd : q.oddFrame = decide (q.frame % 2 = 1)
  vram : q.vram.wf none = true ∧ q.vram.below 0x1000 = true
  oam : q.oam.wf none = true ∧ q.oam.below 0x100 = true
  palette : q.palette.wf none = true ∧ q.palette.below 0x20 = true
  secondary : q.secondaryOam.wf none = true ∧ q.secondaryOam.below 0x20 = true

/-- The cartridge's memories are canonical. -/
structure Cartridge.Inv (c : Cartridge) : Prop where
  prgRom : c.prgRom.wf prgBlank = true
  prgRam : c.prgRam.wf none = true
  chrRom : c.chrRom.wf none = true
  chrRam : c.chrRam.wf none = true

/-- `instructionCycle` and `current` agree (R19, R330): nothing in progress at cycle 0; a legal opcode before its base
count; an interrupt entry before cycle 7. -/
def sequencingOk (c : Option Current) (k : Nat) : Prop :=
  match c with
  | none => k = 0
  | some (.instr op) => (opEntry op).legal = true ∧ 1 ≤ k ∧ k < (opEntry op).base
  | some .nmi => 1 ≤ k ∧ k < entryCycles
  | some .irq => 1 ≤ k ∧ k < entryCycles

/-- The invariant of reachable states. -/
structure State.Inv (s : State) : Prop where
  /-- "P.U = 1 in every reachable state" (R16). -/
  unused : flag .U s.p = true
  /-- Only NTSC is specified (R305). -/
  ntsc : s.timingMode = .ntsc
  sequencing : sequencingOk s.current s.instructionCycle
  /-- At most two penalty cycles, and only between instructions (R19, R335). -/
  penalty : s.penaltyLeft ≤ 2 ∧ (s.penaltyLeft ≠ 0 → s.instructionCycle = 0)
  /-- A halted CPU has nothing in progress (R93, R332). -/
  halt : s.halted = true → s.instructionCycle = 0 ∧ s.penaltyLeft = 0
  /-- 513 or 514 cycles at most (R291). -/
  stall : s.dmaStall ≤ 514
  ram : s.ram.wf none = true ∧ s.ram.below 0x800 = true
  cart : s.cart.Inv
  ppu : s.ppu.Inv

/-- The two states have the same CPU registers and sequencing fields: all of CpuState but the pending latch (R10). -/
structure SameCpu (s t : State) : Prop where
  a : t.a = s.a
  x : t.x = s.x
  y : t.y = s.y
  pc : t.pc = s.pc
  sp : t.sp = s.sp
  p : t.p = s.p
  instructionCycle : t.instructionCycle = s.instructionCycle
  current : t.current = s.current
  penaltyLeft : t.penaltyLeft = s.penaltyLeft
  totalCycles : t.totalCycles = s.totalCycles
  halted : t.halted = s.halted

/-- The two states have the same fields that only the Timing Coordinator and the host write, but the DMA stall. -/
structure SameTiming (s t : State) : Prop where
  masterCycle : t.masterCycle = s.masterCycle
  timingMode : t.timingMode = s.timingMode
  running : t.running = s.running
  memEpoch : t.memEpoch = s.memEpoch
  inputs : t.inputs = s.inputs

/-- Plain memory: internal RAM, or FlatROM's PRG array (R41, R46, R52). A read there has no side effect (R55). -/
def plainMemory (c : Cartridge) (a : Word) : Bool :=
  decide (a.toNat ≤ 0x1FFF) || (decide (0x8000 ≤ a.toNat) && c.mapper == .flatRom)

/-- An instruction boundary at which the next CPU cycle fetches an opcode: no instruction, penalty, stall or halt in
progress, nothing pending that would be accepted, no host request to come (R223, R228, R331). -/
structure QuietBoundary (s : State) : Prop where
  ntsc : s.timingMode = .ntsc
  notHalted : s.halted = false
  cycle : s.instructionCycle = 0
  penalty : s.penaltyLeft = 0
  stall : s.dmaStall = 0
  inputs : s.inputs = []
  nmi : s.pending.nmi = false
  irq : s.pending.irq = false ∨ flag .I s.p = true
  reset : s.pending.reset = false

end Sys2Proof.Machine
end

