-- ==== Sys2Proof/Certificates/Slice0/Obligations.lean ====
section
/-! DEFINITION. The statements for the provers. The formulas of namespace `Sys2Proof.Spec` are written from the spec's
rules a second time, in natural-number arithmetic and whole-byte masks, so that a statement does not repeat the
definition it is about. -/

namespace Sys2Proof.Spec

open Sys2Proof.Machine

/-! ### Formulas of the rules -/

/-- One row of the table of R92: mode, opcode, base cycles, crossing-sensitive. -/
abbrev Row := Mode × Byte × Nat × Bool

/-- The legal opcodes of a mnemonic are exactly these rows ("Operands" of its rule, R92). -/
def Forms (k : Mnemonic) (rows : List Row) : Prop :=
  (∀ r ∈ rows, opEntry r.2.1 = ⟨k, r.1, r.2.2.1, r.2.2.2, true⟩) ∧
    ∀ op : Byte, (opEntry op).kind = k → op ∈ rows.map (fun r => r.2.1)

/-- The eight rows of an instruction that reads through every data mode. -/
def eightRows (imm zp zpx abs absx absy indx indy : Byte) : List Row :=
  [(.imm, imm, 2, false), (.zp, zp, 3, false), (.zpx, zpx, 4, false), (.abs, abs, 4, false),
   (.absx, absx, 4, true), (.absy, absy, 4, true), (.indx, indx, 6, false), (.indy, indy, 5, true)]

/-- The five rows of a shift or rotate. -/
def shiftRows (acc zp zpx abs absx : Byte) : List Row :=
  [(.acc, acc, 2, false), (.zp, zp, 5, false), (.zpx, zpx, 6, false), (.abs, abs, 6, false), (.absx, absx, 7, false)]

/-- A status byte with Z and N of the byte `v` (R17). -/
def withZN (v p : Byte) : Byte := (p &&& 0x7D) ||| (if v = 0x00 then 0x02 else 0x00) ||| (v &&& 0x80)

/-- A status byte with C. -/
def withC (b : Bool) (p : Byte) : Byte := (p &&& 0xFE) ||| (if b then 0x01 else 0x00)

/-- A status byte with V. -/
def withV (b : Bool) (p : Byte) : Byte := (p &&& 0xBF) ||| (if b then 0x40 else 0x00)

/-- P.C as a number. -/
def carry (p : Byte) : Nat := p.toNat % 2

/-- The word whose low byte is at the zero-page address `z`, both addresses wrapped at 8 bits (R84, R85). -/
def pointer (s : State) (z : Nat) : Nat :=
  (ramByte s ((z + 1) % 256)).toNat * 256 + (ramByte s (z % 256)).toNat

/-- The address before the last index is added (R77 to R85). -/
def base (m : Mem) (s : State) : Nat :=
  match m with
  | .zp b => b.toNat
  | .zpx b => (b.toNat + s.x.toNat) % 256
  | .zpy b => (b.toNat + s.y.toNat) % 256
  | .abs w | .absx w | .absy w => w.toNat
  | .indx b => pointer s (b.toNat + s.x.toNat)
  | .indy b => pointer s b.toNat

/-- The last index (R81, R82, R85). -/
def index (m : Mem) (s : State) : Nat :=
  match m with
  | .absx _ => s.x.toNat
  | .absy _ | .indy _ => s.y.toNat
  | .zp _ | .zpx _ | .zpy _ | .abs _ | .indx _ => 0

/-- The effective address (R77 to R85). -/
def ea (m : Mem) (s : State) : Word := BitVec.ofNat 16 (base m s + index m s)

/-- `crossed`: the index changed the high byte of the base address (R81, R82, R85). -/
def crossed (m : Mem) (s : State) : Bool := decide ((base m s + index m s) % 65536 / 256 ≠ base m s / 256)

/-- The operand of a reading instruction and the state after reading it: the immediate byte (R76), or the byte at the
effective address with the page-crossing penalty (R87). -/
def operand (o : Src) (s : State) : Byte × State :=
  match o with
  | .imm v => (v, s)
  | .mem m =>
    let r := busRead (ea m s) s
    (r.1, if crossed m s then { r.2 with penaltyLeft := 1 } else r.2)

/-- The read-modify-write pattern (R150): `f` gives the new byte from the old, `g` the new P from the old byte and P. -/
def readModifyWrite (m : Mem) (f : Byte → Byte) (g : Byte → Byte → Byte) (s : State) : State :=
  let r := busRead (ea m s) s
  busWrite (ea m s) (f r.1) { r.2 with p := g r.1 s.p }

/-- The two-page penalty of a branch (R174). -/
def branchPenalty (taken : Bool) (pc : Word) (off : Byte) : Nat :=
  if taken then (if (pc.toInt + off.toInt) % 65536 / 256 = (pc.toNat : Int) / 256 then 1 else 2) else 0

/-- A branch (R174): taken, PC moves by the signed offset modulo 2^16 and the penalty is charged. -/
def branched (taken : Bool) (off : Byte) (s : State) : State :=
  if taken then { s with pc := BitVec.ofInt 16 (s.pc.toInt + off.toInt), penaltyLeft := branchPenalty true s.pc off } else s

/-- The penalty of an instruction by R87 and R174. -/
def penalty (i : Instr) (s : State) : Nat :=
  match i with
  | .lda (.mem m) | .ldx (.mem m) | .ldy (.mem m) | .adc (.mem m) | .sbc (.mem m) | .cmp (.mem m)
  | .and (.mem m) | .ora (.mem m) | .eor (.mem m) => if crossed m s then 1 else 0
  | .bcc off => branchPenalty (!s.p.getLsbD 0) s.pc off
  | .bcs off => branchPenalty (s.p.getLsbD 0) s.pc off
  | .beq off => branchPenalty (s.p.getLsbD 1) s.pc off
  | .bne off => branchPenalty (!s.p.getLsbD 1) s.pc off
  | .bmi off => branchPenalty (s.p.getLsbD 7) s.pc off
  | .bpl off => branchPenalty (!s.p.getLsbD 7) s.pc off
  | .bvc off => branchPenalty (!s.p.getLsbD 6) s.pc off
  | .bvs off => branchPenalty (s.p.getLsbD 6) s.pc off
  | _ => 0

/-- The RAM offset of the stack byte a value `sp` of SP designates (R13). -/
def stackCell (sp : Byte) : Nat := 0x100 + sp.toNat

/-- The exception sequence of BRK, NMI and IRQ (R205, R226): PC pushed high then low, the status byte pushed, P.I set,
PC loaded from the vector, low byte first. -/
def entered (status : Byte) (vec : Word) (s : State) : State :=
  let ram := ((s.ram.store none (stackCell s.sp) (hi8 s.pc)).store none (stackCell (s.sp - 1)) (lo8 s.pc)).store none
    (stackCell (s.sp - 2)) status
  let t := { s with ram := ram, sp := s.sp - 3, p := s.p ||| 0x04 }
  let lo := busRead vec t
  let hi := busRead (vec + 1) lo.2
  { hi.2 with pc := BitVec.ofNat 16 (hi.1.toNat * 256 + lo.1.toNat) }

/-- `CpuReset()` (R320): every CpuState field at its reset value, PC the little-endian word at $FFFC, nothing pushed. -/
def cpuReinitialised (s : State) : State :=
  let t := { s with
    a := 0x00, x := 0x00, y := 0x00, sp := 0xFD, p := 0x24
    halted := false, pending := ⟨false, false, false⟩
    instructionCycle := 0, current := none, penaltyLeft := 0, totalCycles := 0 }
  let lo := busRead 0xFFFC t
  let hi := busRead 0xFFFD lo.2
  { hi.2 with pc := BitVec.ofNat 16 (lo.1.toNat + 256 * hi.1.toNat) }

/-! ### The cycles a step adds around an instruction -/

/-- A tick whose CPU cycle only counts (R333). -/
def idleTick (s : State) : State :=
  ppuTick { s with
    masterCycle := s.masterCycle + 1
    totalCycles := s.totalCycles + 1
    instructionCycle := s.instructionCycle + 1 }

/-- A tick of DMA stall (R291). -/
def stallTick (s : State) : State := ppuTick { s with masterCycle := s.masterCycle + 1, dmaStall := s.dmaStall - 1 }

/-- A tick whose CPU cycle is a penalty cycle (R335). -/
def penaltyTick (s : State) : State :=
  ppuTick { s with
    masterCycle := s.masterCycle + 1
    totalCycles := s.totalCycles + 1
    penaltyLeft := s.penaltyLeft - 1 }

/-- The state with one more CPU cycle and master cycle counted (R301, R330). -/
def counted (s : State) : State := { s with masterCycle := s.masterCycle + 1, totalCycles := s.totalCycles + 1 }

/-- The state in which the instruction with table entry `e`, just fetched as `op` into `s`, takes its effect: the fetch
tick, `base - 2` idle ticks, and the counters of the effect cycle (R332 to R334). -/
def beforeEffect (op : Byte) (s : State) : State :=
  counted (Nat.iterate idleTick ((opEntry op).base - 2)
    (ppuTick { s with current := some (.instr op), instructionCycle := 1 }))

/-- The ticks after an effect step or entry up to the next boundary: the PPU's part of its own tick, the DMA stall, the
penalty cycles (R291, R301, R335). -/
def finished (t : State) : State :=
  Nat.iterate penaltyTick t.penaltyLeft (Nat.iterate stallTick t.dmaStall (ppuTick t))

/-- The entry of an accepted interrupt: cycle 1, five idle cycles, and the entry sequence on cycle 7 (R337). -/
def interruptTaken (vec : Word) (kind : Current) (s : State) : State :=
  let w := counted (Nat.iterate idleTick 5 (ppuTick { s with current := some kind, instructionCycle := 1 }))
  ppuTick (entered ((w.p &&& 0xEF) ||| 0x20) vec { w with instructionCycle := 0, current := none })

/-- An instruction boundary under NTSC (R331). -/
structure Boundary (s : State) : Prop where
  ntsc : s.timingMode = .ntsc
  notHalted : s.halted = false
  cycle : s.instructionCycle = 0
  penalty : s.penaltyLeft = 0
  stall : s.dmaStall = 0

/-- Whether the host has a request of kind `k` to make before the next tick (R221, R326; log entry 9). -/
def due (s : State) (k : InterruptKind) : Bool := s.inputs.any (fun e => decide (e.1 ≤ s.masterCycle ∧ e.2 = k))

/-- The state with the host's due requests made: each sets the bit of its own kind (R22, R221), and those not yet due stay
queued (log entry 9). -/
def delivered (s : State) : State := { s with
  pending := ⟨s.pending.nmi || due s .nmi, s.pending.irq || due s .irq, s.pending.reset || due s .reset⟩
  inputs := s.inputs.filter (fun e => decide (s.masterCycle < e.1)) }

/-- The bytes of `i` stand in plain memory at PC (R64, R70). -/
def CodeAt (s : State) (i : Instr) : Prop :=
  ∀ k b, (encode i)[k]? = some b →
    plainMemory s.cart (s.pc + BitVec.ofNat 16 k) = true ∧ (busRead (s.pc + BitVec.ofNat 16 k) s).1 = b

/-! ### Frames -/

/-- The bits of P an instruction may write (R18). -/
def flagMask : Instr → Byte
  | .lda _ | .ldx _ | .ldy _ | .tax | .tay | .txa | .tya | .tsx | .pla | .and _ | .ora _ | .eor _
  | .inc _ | .dec _ | .inx | .iny | .dex | .dey => 0x82
  | .adc _ | .sbc _ => 0xC3
  | .cmp _ | .cpx _ | .cpy _ | .asl _ | .lsr _ | .rol _ | .ror _ => 0x83
  | .bit _ => 0xC2
  | .clc | .sec => 0x01
  | .cli | .sei | .brk => 0x04
  | .clv => 0x40
  | .cld | .sed => 0x08
  | .plp | .rti => 0xFF
  | .sta _ | .stx _ | .sty _ | .txs | .pha | .php | .jmp _ | .jsr _ | .rts | .nop | .illegal _
  | .bcc _ | .bcs _ | .beq _ | .bne _ | .bmi _ | .bpl _ | .bvc _ | .bvs _ => 0x00

/-- The instructions that may write A (R10). -/
def writesA : Instr → Bool
  | .lda _ | .txa | .tya | .pla | .adc _ | .sbc _ | .and _ | .ora _ | .eor _ => true
  | .asl .acc | .lsr .acc | .rol .acc | .ror .acc => true
  | _ => false

/-- The instructions that may write X (R10). -/
def writesX : Instr → Bool
  | .ldx _ | .tax | .tsx | .inx | .dex => true
  | _ => false

/-- The instructions that may write Y (R10). -/
def writesY : Instr → Bool
  | .ldy _ | .tay | .iny | .dey => true
  | _ => false

/-- The instructions that may write SP (R10). -/
def writesSp : Instr → Bool
  | .txs | .pha | .php | .pla | .plp | .jsr _ | .rts | .rti | .brk => true
  | _ => false

/-- The instructions that may write PC besides passing their own bytes (R12). -/
def writesPc : Instr → Bool
  | .jmp _ | .jsr _ | .rts | .rti | .brk => true
  | .bcc _ | .bcs _ | .beq _ | .bne _ | .bmi _ | .bpl _ | .bvc _ | .bvs _ => true
  | _ => false

/-- The addresses an instruction stores to, in the state in which it takes its effect. -/
def stored (i : Instr) (s : State) : List Word :=
  match i with
  | .sta m | .stx m | .sty m | .inc m | .dec m => [ea m s]
  | .asl (.mem m) | .lsr (.mem m) | .rol (.mem m) | .ror (.mem m) => [ea m s]
  | .pha | .php => [BitVec.ofNat 16 (stackCell s.sp)]
  | .jsr _ => [BitVec.ofNat 16 (stackCell s.sp), BitVec.ofNat 16 (stackCell (s.sp - 1))]
  | .brk =>
    [BitVec.ofNat 16 (stackCell s.sp), BitVec.ofNat 16 (stackCell (s.sp - 1)), BitVec.ofNat 16 (stackCell (s.sp - 2))]
  | _ => []

/-- The addresses an instruction reads as data, a jump pointer or a vector; the zero-page pointers and the stack bytes,
always RAM, are left out. -/
def loaded (i : Instr) (s : State) : List Word :=
  match i with
  | .lda (.mem m) | .ldx (.mem m) | .ldy (.mem m) | .adc (.mem m) | .sbc (.mem m) | .cmp (.mem m) | .cpx (.mem m)
  | .cpy (.mem m) | .and (.mem m) | .ora (.mem m) | .eor (.mem m) => [ea m s]
  | .bit m | .inc m | .dec m => [ea m s]
  | .asl (.mem m) | .lsr (.mem m) | .rol (.mem m) | .ror (.mem m) => [ea m s]
  | .jmp (.ind ptr) => [ptr, BitVec.ofNat 16 (ptr.toNat / 256 * 256 + (ptr.toNat + 1) % 256)]
  | .brk => [0xFFFE, 0xFFFF]
  | _ => []

/-- An address of memory, not of a device: RAM, or an address the mapper maps (R41, R51). -/
def memoryAt (c : Cartridge) (a : Word) : Prop :=
  a.toNat ≤ 0x1FFF ∨ (0x4020 ≤ a.toNat ∧ (mapCpuAddress c a).isSome = true)

/-- Whether a store to `w` leaves the byte at the memory address `a` alone: another byte of RAM, or, for `a` in the
cartridge, a FlatROM cartridge or a store that reaches neither the mapper nor, through the PPU, its CHR memory. -/
def leavesAlone (c : Cartridge) (w a : Word) : Prop :=
  (a.toNat ≤ 0x1FFF → w.toNat ≤ 0x1FFF → w.toNat % 0x800 ≠ a.toNat % 0x800) ∧
    (0x4020 ≤ a.toNat → c.mapper = .flatRom ∨ w.toNat ≤ 0x1FFF ∨ (0x4000 ≤ w.toNat ∧ w.toNat ≤ 0x401F))

/-- The states differ at most in bit 4 of P, the live Break bit (R16). -/
def SameButBreak (s t : State) : Prop := t = { s with p := t.p } ∧ (t.p &&& 0xEF) = (s.p &&& 0xEF)

/-- The states differ at most in bit 3 of P, the Decimal flag (R15). -/
def SameButDecimal (s t : State) : Prop := t = { s with p := t.p } ∧ (t.p &&& 0xF7) = (s.p &&& 0xF7)

/-- How many `vblankStarted` edges are among the outputs. -/
def vblankStarts (s : State) : Nat := s.outputs.countP (fun o => decide (o = .vblankStarted))

/-- How many `vblankEnded` edges are among the outputs. -/
def vblankEnds (s : State) : Nat := s.outputs.countP (fun o => decide (o = .vblankEnded))

end Sys2Proof.Spec

open Sys2Proof Sys2Proof.Machine Sys2Proof.Spec

/-! ### Encoding -/

/-- Decoding the bytes of a well-formed instruction, whatever bytes follow, gives the instruction and those bytes
(R70, R72, R73, R95). -/
def Obligations.DecodeOfEncodeIsTheInstruction : Prop :=
  ∀ (i : Instr) (rest : List Byte), i.wf = true → decode (encode i ++ rest) = .ok (i, rest)

/-- Every decoding is of a well-formed instruction whose bytes stand at the head of the list, as many as its mode has
(R70, R71), and the opcode byte alone gave it the mnemonic and mode of its table entry, or made it illegal (R73). -/
def Obligations.EncodeOfDecodeIsTheBytes : Prop :=
  ∀ (op : Byte) (bs rest : List Byte) (i : Instr), decode (op :: bs) = .ok (i, rest) →
    i.wf = true ∧ encode i ++ rest = op :: bs ∧ (encode i).length = 1 + (opEntry op).mode.operandBytes ∧
    i.mnemonic = (opEntry op).kind ∧ i.mode = (opEntry op).mode ∧ ((opEntry op).legal = false → i = .illegal op)

/-- The words of one instruction of each family, written out from the tables of R91 and R72, decode to it. A sanity
statement on fixed words. -/
def Obligations.SampleWordsDecode : Prop :=
  decode [0xA9, 0x10] = .ok (.lda (.imm 0x10), []) ∧
  decode [0x8D, 0x34, 0x12] = .ok (.sta (.abs 0x1234), []) ∧
  decode [0xBA] = .ok (.tsx, []) ∧
  decode [0x71, 0x40] = .ok (.adc (.mem (.indy 0x40)), []) ∧
  decode [0x41, 0x40] = .ok (.eor (.mem (.indx 0x40)), []) ∧
  decode [0x7E, 0xFF, 0x02] = .ok (.ror (.mem (.absx 0x02FF)), []) ∧
  decode [0x6C, 0xFF, 0x00] = .ok (.jmp (.ind 0x00FF), []) ∧
  decode [0xD0, 0xFB] = .ok (.bne 0xFB, []) ∧
  decode [0x00] = .ok (.brk, []) ∧
  decode [0xFF] = .ok (.illegal 0xFF, [])

/-- The illegal opcodes (R93, R332): the list of 105 is exactly the set of opcodes without a legal entry; one decodes to
`illegal`, whose effect halts the CPU and changes nothing else; fetched at a quiet boundary, from an address anywhere, it
takes one tick, leaves PC past the opcode byte, and no other register, memory or sequencing field changes. -/
def Obligations.IllegalOpcodesHalt : Prop :=
  illegalOpcodes.length = 105 ∧ illegalOpcodes.Nodup ∧
  (∀ op : Byte, op ∈ illegalOpcodes ↔ (opEntry op).legal = false) ∧
  (∀ op b1 b2 : Byte, op ∈ illegalOpcodes → instrOf op b1 b2 = .illegal op) ∧
  (∀ (op : Byte) (s : State), exec (.illegal op) s = .next { s with halted := true }) ∧
  ∀ s : State, QuietBoundary s →
    let f := busRead s.pc (counted s)
    f.1 ∈ illegalOpcodes →
    step s = .next (ppuTick { f.2 with pc := s.pc + 1, halted := true })

/-- The crossing-sensitive opcodes (R87): exactly the read instructions LDA, LDX, LDY, ADC, SBC, CMP, AND, ORA, EOR
through absolute,X, absolute,Y or (zero page),Y; and every decoded instruction charges the penalty the rule gives. -/
def Obligations.PenaltyIsWhatTheTableAllows : Prop :=
  (∀ op : Byte, (opEntry op).crossing = true ↔
    (opEntry op).kind ∈ [Mnemonic.LDA, .LDX, .LDY, .ADC, .SBC, .CMP, .AND, .ORA, .EOR] ∧
      (opEntry op).mode ∈ [Mode.absx, .absy, .indy]) ∧
  ∀ (op b1 b2 : Byte) (s : State), s.penaltyLeft = 0 →
    ∃ t, exec (instrOf op b1 b2) s = .next t ∧ t.penaltyLeft = penalty (instrOf op b1 b2) s ∧
      ((opEntry op).mode ≠ .rel → 0 < t.penaltyLeft → (opEntry op).crossing = true)

/-! ### The step -/

/-- At a quiet boundary the step fetches the opcode byte, waits `base - 2` cycles, reads the operand bytes, runs `exec` of
the decoded instruction on the base-th cycle, and then spends the DMA stall and the penalty (R330 to R335, R291). -/
def Obligations.StepRunsTheDecodedInstruction : Prop :=
  ∀ s : State, QuietBoundary s →
    let f := fetchByte (counted s)
    (opEntry f.1).legal = true →
    let n := (opEntry f.1).mode.operandBytes
    let r := fetchOperands n (beforeEffect f.1 f.2)
    let i := instrOf f.1 r.1.1 r.1.2
    decode (f.1 :: [r.1.1, r.1.2].take n) = .ok (i, []) ∧
    ∃ t, exec i { r.2 with instructionCycle := 0, current := none, penaltyLeft := 0 } = .next t ∧
      step s = .next (finished t)

/-- The same for code in plain memory: when the bytes of a well-formed legal instruction `i` stand at PC, the step is
`exec i` at a state that has the CPU registers, memory and cartridge of `s`, PC past the bytes, and the PPU advanced by
three cycles for each of the `base - 1` earlier cycles. -/
def Obligations.StepRunsTheInstructionAtPc : Prop :=
  ∀ (s : State) (i : Instr) (op : Byte), QuietBoundary s → i.wf = true → i.opcode = some op →
    (opEntry op).legal = true → CodeAt s i →
    ∃ u t, exec i u = .next t ∧ step s = .next (finished t) ∧
      u.a = s.a ∧ u.x = s.x ∧ u.y = s.y ∧ u.sp = s.sp ∧ u.p = s.p ∧
      u.pc = s.pc + BitVec.ofNat 16 (encode i).length ∧
      u.ram = s.ram ∧ u.cart = s.cart ∧ u.memEpoch = s.memEpoch ∧ u.halted = false ∧
      u.instructionCycle = 0 ∧ u.current = none ∧ u.penaltyLeft = 0 ∧ u.dmaStall = 0 ∧
      u.totalCycles = s.totalCycles + (opEntry op).base ∧
      u.masterCycle = s.masterCycle + (opEntry op).base ∧
      u.ppu = (ppuCycles (3 * ((opEntry op).base - 1)) s).ppu

/-- The cycle-count property (R339) for code in plain memory: an instruction takes its base count plus its penalty, an
illegal opcode one cycle. -/
def Obligations.InstructionTakesBasePlusPenaltyCycles : Prop :=
  ∀ (s : State) (i : Instr) (op : Byte), QuietBoundary s → i.wf = true → i.opcode = some op → CodeAt s i →
    ∃ v, step s = .next v ∧
      v.totalCycles = s.totalCycles + (opEntry op).base +
        penalty i { s with pc := s.pc + BitVec.ofNat 16 (encode i).length }

/-- While halted (R336, R225): with no NMI pending a cycle counts and nothing else of the CPU changes, IRQ and Reset
staying pending; with NMI pending the CPU wakes and the seven-cycle NMI entry runs. -/
def Obligations.HaltedCpuWakesOnlyOnNmi : Prop :=
  ∀ s : State, s.timingMode = .ntsc → s.halted = true → s.instructionCycle = 0 → s.penaltyLeft = 0 →
    s.dmaStall = 0 → s.inputs = [] →
    step s = .next
      (if s.pending.nmi then
        interruptTaken 0xFFFA .nmi { counted s with halted := false, pending := { s.pending with nmi := false } }
      else ppuTick (counted s))

/-- NMI and IRQ acceptance and entry (R224, R225, R226, R337): at a boundary, with no host request to come, a pending NMI is
taken whatever P.I holds; without one, a pending IRQ is taken when P.I is clear. -/
def Obligations.InterruptsAreTakenAtABoundary : Prop :=
  ∀ s : State, Boundary s → s.inputs = [] →
    (s.pending.nmi = true →
      step s = .next (interruptTaken 0xFFFA .nmi { counted s with pending := { s.pending with nmi := false } })) ∧
    (s.pending.nmi = false → s.pending.irq = true → s.p.getLsbD 2 = false →
      step s = .next (interruptTaken 0xFFFE .irq { counted s with pending := { s.pending with irq := false } }))

/-- Host requests and the priority NMI, IRQ, Reset, fetch. `requestInterrupt` sets the bit of its own kind and nothing else
(R22, R221); a tick anywhere, in an instruction, a stall or a halt too, first makes the requests of the host that are due,
each setting its own bit, and leaves those not yet due queued (that they are a list in State, and when one is due, is the
model's choice and no rule's: log entry 9, DESIGN CHOICE). Then, in the one tick at a boundary (R228): which bit of the latch is taken, the others staying; an IRQ with P.I
set is not eligible; after a taken interrupt no opcode was fetched (R229). -/
def Obligations.InterruptPriorityAtABoundary : Prop :=
  ∀ s : State, let d := delivered s
    (∀ k : InterruptKind, requestInterrupt k s = { s with pending :=
      ⟨s.pending.nmi || decide (k = .nmi), s.pending.irq || decide (k = .irq), s.pending.reset || decide (k = .reset)⟩ }) ∧
    tick s = tick d ∧
    (Boundary s →
      (d.pending.nmi = true →
        tick s = .next (ppuTick { counted d with
          pending := { d.pending with nmi := false }, current := some .nmi, instructionCycle := 1 })) ∧
      (d.pending.nmi = false → d.pending.irq = true → s.p.getLsbD 2 = false →
        tick s = .next (ppuTick { counted d with
          pending := { d.pending with irq := false }, current := some .irq, instructionCycle := 1 })) ∧
      (d.pending.nmi = false → (d.pending.irq = false ∨ s.p.getLsbD 2 = true) → d.pending.reset = true →
        tick s = .next (ppuTick (cpuReinitialised (counted d)))) ∧
      (d.pending.nmi = false → (d.pending.irq = false ∨ s.p.getLsbD 2 = true) → d.pending.reset = false →
        let f := busRead s.pc (counted d)
        tick s = .next (ppuTick
          (if (opEntry f.1).legal then
            { f.2 with pc := s.pc + 1, current := some (.instr f.1), instructionCycle := 1 }
          else { f.2 with pc := s.pc + 1, halted := true }))))

/-- A pending Reset (R227, R320), one the host requests before this tick included (log entry 9): taken when no NMI is pending
and no IRQ is eligible; one tick, every CpuState field at its reset value, PC from $FFFC, nothing pushed, and the PPU, RAM,
cartridge and master clock go on. -/
def Obligations.PendingResetReinitialisesTheCpu : Prop :=
  ∀ s : State, Boundary s → let d := delivered s
    d.pending.nmi = false → (d.pending.irq = false ∨ s.p.getLsbD 2 = true) → d.pending.reset = true →
      step s = .next (ppuTick (cpuReinitialised (counted d)))

/-! ### The invariant -/

/-- The invariant holds at `State.reset` (whose cartridge is the model's choice, log entry 3). -/
def Obligations.InvariantHoldsAtReset : Prop := State.reset.Inv

/-- Every step from a state with the invariant answers a next state: no fault, no refusal, and the run to the next
boundary ends (R42, R220, R331). -/
def Obligations.EveryStepAnswersANextState : Prop := ∀ s : State, s.Inv → ∃ t, step s = .next t

/-- Every step keeps the invariant: P.U is 1 (R16), positions stay in range (R25, R261), the status and temporary-address
bits no rule sets stay 0, `oddFrame = frame mod 2` (R269), sequencing fields agree (R19), the memories stay canonical and
inside their sizes. -/
def Obligations.EveryStepKeepsTheInvariant : Prop := ∀ s t : State, s.Inv → step s = .next t → t.Inv

/-! ### Loads, stores, transfers, stack -/

/-- LDA, LDX, LDY (R100 to R102): opcodes, the loaded register, Z and N; everything else is the operand read's. -/
def Obligations.LoadsSetTheRegisterAndZN : Prop :=
  Forms .LDA (eightRows 0xA9 0xA5 0xB5 0xAD 0xBD 0xB9 0xA1 0xB1) ∧
  Forms .LDX [(.imm, 0xA2, 2, false), (.zp, 0xA6, 3, false), (.zpy, 0xB6, 4, false), (.abs, 0xAE, 4, false),
    (.absy, 0xBE, 4, true)] ∧
  Forms .LDY [(.imm, 0xA0, 2, false), (.zp, 0xA4, 3, false), (.zpx, 0xB4, 4, false), (.abs, 0xAC, 4, false),
    (.absx, 0xBC, 4, true)] ∧
  ∀ (o : Src) (s : State), let m := operand o s
    exec (.lda o) s = .next { m.2 with a := m.1, p := withZN m.1 s.p } ∧
    exec (.ldx o) s = .next { m.2 with x := m.1, p := withZN m.1 s.p } ∧
    exec (.ldy o) s = .next { m.2 with y := m.1, p := withZN m.1 s.p }

/-- STA, STX, STY (R103 to R105): opcodes, and one byte written at the effective address, which is not read; no flag. -/
def Obligations.StoresWriteTheRegister : Prop :=
  Forms .STA [(.zp, 0x85, 3, false), (.zpx, 0x95, 4, false), (.abs, 0x8D, 4, false), (.absx, 0x9D, 5, false),
    (.absy, 0x99, 5, false), (.indx, 0x81, 6, false), (.indy, 0x91, 6, false)] ∧
  Forms .STX [(.zp, 0x86, 3, false), (.zpy, 0x96, 4, false), (.abs, 0x8E, 4, false)] ∧
  Forms .STY [(.zp, 0x84, 3, false), (.zpx, 0x94, 4, false), (.abs, 0x8C, 4, false)] ∧
  ∀ (m : Mem) (s : State),
    exec (.sta m) s = .next (busWrite (ea m s) s.a s) ∧
    exec (.stx m) s = .next (busWrite (ea m s) s.x s) ∧
    exec (.sty m) s = .next (busWrite (ea m s) s.y s)

/-- TAX, TAY, TXA, TYA, TSX, TXS (R110 to R115): all set Z and N but TXS. -/
def Obligations.TransfersCopyTheRegister : Prop :=
  Forms .TAX [(.impl, 0xAA, 2, false)] ∧ Forms .TAY [(.impl, 0xA8, 2, false)] ∧
  Forms .TXA [(.impl, 0x8A, 2, false)] ∧ Forms .TYA [(.impl, 0x98, 2, false)] ∧
  Forms .TSX [(.impl, 0xBA, 2, false)] ∧ Forms .TXS [(.impl, 0x9A, 2, false)] ∧
  ∀ s : State,
    exec .tax s = .next { s with x := s.a, p := withZN s.a s.p } ∧
    exec .tay s = .next { s with y := s.a, p := withZN s.a s.p } ∧
    exec .txa s = .next { s with a := s.x, p := withZN s.x s.p } ∧
    exec .tya s = .next { s with a := s.y, p := withZN s.y s.p } ∧
    exec .tsx s = .next { s with x := s.sp, p := withZN s.sp s.p } ∧
    exec .txs s = .next { s with sp := s.x }

/-- PHA, PHP, PLA, PLP (R120 to R123): a push stores in the stack page and then decrements SP modulo 256, PHP pushing P
with bits 4 and 5 set and leaving P as it is; a pull increments SP modulo 256 and reads the stack page, PLP taking all of P
from the byte but bit 5, which is 1. -/
def Obligations.StackInstructionsPushAndPull : Prop :=
  Forms .PHA [(.impl, 0x48, 3, false)] ∧ Forms .PHP [(.impl, 0x08, 3, false)] ∧
  Forms .PLA [(.impl, 0x68, 4, false)] ∧ Forms .PLP [(.impl, 0x28, 4, false)] ∧
  ∀ s : State, let b := ramByte s (stackCell (s.sp + 1))
    exec .pha s = .next { s with ram := s.ram.store none (stackCell s.sp) s.a, sp := s.sp - 1 } ∧
    exec .php s = .next { s with ram := s.ram.store none (stackCell s.sp) (s.p ||| 0x30), sp := s.sp - 1 } ∧
    exec .pla s = .next { s with a := b, sp := s.sp + 1, p := withZN b s.p } ∧
    exec .plp s = .next { s with sp := s.sp + 1, p := b ||| 0x20 }

/-- What was pushed comes back (R14, R120 to R124, R172, R173): PHA then PLA restores A and SP; PHP then PLP restores SP and
every flag but Break, which becomes 1 (with bit 5 of P set, as in every reachable state); RTS after JSR resumes after the
JSR with SP restored, whatever SP held. -/
def Obligations.PullUndoesPush : Prop :=
  ∀ s : State,
    (∃ t u, exec .pha s = .next t ∧ exec .pla t = .next u ∧ u.a = s.a ∧ u.sp = s.sp ∧ u.p = withZN s.a s.p) ∧
    (flag .U s.p = true →
      ∃ t u, exec .php s = .next t ∧ exec .plp t = .next u ∧ u.sp = s.sp ∧ u.p = s.p ||| 0x10) ∧
    ∀ w : Word, ∃ t u, exec (.jsr w) s = .next t ∧ exec .rts t = .next u ∧ t.pc = w ∧ u.pc = s.pc ∧ u.sp = s.sp

/-! ### Arithmetic, logic, shifts -/

/-- ADC (R130): the sum, C, V by the document's formula, Z and N. P.D plays no part. -/
def Obligations.AdcAddsWithCarry : Prop :=
  Forms .ADC (eightRows 0x69 0x65 0x75 0x6D 0x7D 0x79 0x61 0x71) ∧
  ∀ (o : Src) (s : State), let m := operand o s
    let sum := s.a.toNat + m.1.toNat + carry s.p
    let r : Byte := BitVec.ofNat 8 (sum % 256)
    exec (.adc o) s = .next { m.2 with
      a := r
      p := withZN r (withV ((~~~(s.a ^^^ m.1) &&& (s.a ^^^ r)).getLsbD 7) (withC (decide (sum > 255)) s.p)) }

/-- SBC (R131): the difference with an inverted borrow, C, V, Z and N. -/
def Obligations.SbcSubtractsWithBorrow : Prop :=
  Forms .SBC (eightRows 0xE9 0xE5 0xF5 0xED 0xFD 0xF9 0xE1 0xF1) ∧
  ∀ (o : Src) (s : State), let m := operand o s
    let diff : Int := s.a.toNat - m.1.toNat - (1 - carry s.p)
    let r : Byte := BitVec.ofInt 8 diff
    exec (.sbc o) s = .next { m.2 with
      a := r
      p := withZN r (withV (((s.a ^^^ m.1) &&& (s.a ^^^ r)).getLsbD 7) (withC (decide (0 ≤ diff)) s.p)) }

/-- What C and V mean (R135): after ADC and SBC of any operand form, C is the unsigned outcome and V is 1 exactly when the
signed result falls outside -128 to 127. -/
def Obligations.OverflowIsTheSignedOutcome : Prop :=
  ∀ (o : Src) (s : State), let v := (operand o s).1
    (∃ t, exec (.adc o) s = .next t ∧
      let sum := s.a.toInt + v.toInt + carry s.p
      (t.p.getLsbD 6 = true ↔ sum < -128 ∨ 127 < sum) ∧
      (t.p.getLsbD 0 = true ↔ 255 < s.a.toNat + v.toNat + carry s.p)) ∧
    (∃ t, exec (.sbc o) s = .next t ∧
      let diff := s.a.toInt - v.toInt - (1 - carry s.p)
      (t.p.getLsbD 6 = true ↔ diff < -128 ∨ 127 < diff) ∧
      (t.p.getLsbD 0 = true ↔ v.toNat + (1 - carry s.p) ≤ s.a.toNat))

/-- CMP, CPX, CPY (R132 to R134): C is the unsigned comparison, Z and N of the 8-bit difference; the register, V and all
else stay. -/
def Obligations.ComparesSetCarryZN : Prop :=
  Forms .CMP (eightRows 0xC9 0xC5 0xD5 0xCD 0xDD 0xD9 0xC1 0xD1) ∧
  Forms .CPX [(.imm, 0xE0, 2, false), (.zp, 0xE4, 3, false), (.abs, 0xEC, 4, false)] ∧
  Forms .CPY [(.imm, 0xC0, 2, false), (.zp, 0xC4, 3, false), (.abs, 0xCC, 4, false)] ∧
  ∀ (o : Src) (s : State), let m := operand o s
    let after (r : Byte) : Byte :=
      withZN (BitVec.ofInt 8 ((r.toNat : Int) - m.1.toNat)) (withC (decide (m.1.toNat ≤ r.toNat)) s.p)
    exec (.cmp o) s = .next { m.2 with p := after s.a } ∧
    exec (.cpx o) s = .next { m.2 with p := after s.x } ∧
    exec (.cpy o) s = .next { m.2 with p := after s.y }

/-- AND, ORA, EOR (R140 to R142). -/
def Obligations.LogicOperatesOnTheAccumulator : Prop :=
  Forms .AND (eightRows 0x29 0x25 0x35 0x2D 0x3D 0x39 0x21 0x31) ∧
  Forms .ORA (eightRows 0x09 0x05 0x15 0x0D 0x1D 0x19 0x01 0x11) ∧
  Forms .EOR (eightRows 0x49 0x45 0x55 0x4D 0x5D 0x59 0x41 0x51) ∧
  ∀ (o : Src) (s : State), let m := operand o s
    exec (.and o) s = .next { m.2 with a := s.a &&& m.1, p := withZN (s.a &&& m.1) s.p } ∧
    exec (.ora o) s = .next { m.2 with a := s.a ||| m.1, p := withZN (s.a ||| m.1) s.p } ∧
    exec (.eor o) s = .next { m.2 with a := s.a ^^^ m.1, p := withZN (s.a ^^^ m.1) s.p }

/-- BIT (R143): Z from the AND, N and V from bits 7 and 6 of the operand; A and C stay, nothing is written. -/
def Obligations.BitTestsTheOperand : Prop :=
  Forms .BIT [(.zp, 0x24, 3, false), (.abs, 0x2C, 4, false)] ∧
  ∀ (m : Mem) (s : State), let r := operand (.mem m) s
    exec (.bit m) s = .next { r.2 with
      p := (s.p &&& 0x3D) ||| (r.1 &&& 0xC0) ||| (if s.a &&& r.1 = 0x00 then 0x02 else 0x00) }

/-- ASL, LSR, ROL, ROR (R150 to R154), on the accumulator and on memory: the new byte, and C as the bit shifted out. -/
def Obligations.ShiftsRotateThroughCarry : Prop :=
  Forms .ASL (shiftRows 0x0A 0x06 0x16 0x0E 0x1E) ∧ Forms .LSR (shiftRows 0x4A 0x46 0x56 0x4E 0x5E) ∧
  Forms .ROL (shiftRows 0x2A 0x26 0x36 0x2E 0x3E) ∧ Forms .ROR (shiftRows 0x6A 0x66 0x76 0x6E 0x7E) ∧
  ∀ s : State,
    let asl (b : Byte) : Byte := BitVec.ofNat 8 (b.toNat * 2 % 256)
    let lsr (b : Byte) : Byte := BitVec.ofNat 8 (b.toNat / 2)
    let rol (b : Byte) : Byte := BitVec.ofNat 8 (b.toNat * 2 % 256 + carry s.p)
    let ror (b : Byte) : Byte := BitVec.ofNat 8 (b.toNat / 2 + 128 * carry s.p)
    let left (f : Byte → Byte) (old p : Byte) : Byte := withZN (f old) (withC (decide (128 ≤ old.toNat)) p)
    let right (f : Byte → Byte) (old p : Byte) : Byte := withZN (f old) (withC (decide (old.toNat % 2 = 1)) p)
    exec (.asl .acc) s = .next { s with a := asl s.a, p := left asl s.a s.p } ∧
    exec (.lsr .acc) s = .next { s with a := lsr s.a, p := right lsr s.a s.p } ∧
    exec (.rol .acc) s = .next { s with a := rol s.a, p := left rol s.a s.p } ∧
    exec (.ror .acc) s = .next { s with a := ror s.a, p := right ror s.a s.p } ∧
    ∀ m : Mem,
      exec (.asl (.mem m)) s = .next (readModifyWrite m asl (left asl) s) ∧
      exec (.lsr (.mem m)) s = .next (readModifyWrite m lsr (right lsr) s) ∧
      exec (.rol (.mem m)) s = .next (readModifyWrite m rol (left rol) s) ∧
      exec (.ror (.mem m)) s = .next (readModifyWrite m ror (right ror) s)

/-- INC, DEC (R155, R156) on memory and INX, INY, DEX, DEY (R157 to R160) on registers: plus or minus 1 modulo 256, Z and N;
C and V stay. -/
def Obligations.IncrementsAndDecrements : Prop :=
  Forms .INC [(.zp, 0xE6, 5, false), (.zpx, 0xF6, 6, false), (.abs, 0xEE, 6, false), (.absx, 0xFE, 7, false)] ∧
  Forms .DEC [(.zp, 0xC6, 5, false), (.zpx, 0xD6, 6, false), (.abs, 0xCE, 6, false), (.absx, 0xDE, 7, false)] ∧
  Forms .INX [(.impl, 0xE8, 2, false)] ∧ Forms .INY [(.impl, 0xC8, 2, false)] ∧
  Forms .DEX [(.impl, 0xCA, 2, false)] ∧ Forms .DEY [(.impl, 0x88, 2, false)] ∧
  ∀ s : State,
    let up (b : Byte) : Byte := BitVec.ofNat 8 ((b.toNat + 1) % 256)
    let down (b : Byte) : Byte := BitVec.ofNat 8 ((b.toNat + 255) % 256)
    (∀ m : Mem,
      exec (.inc m) s = .next (readModifyWrite m up (fun old p => withZN (up old) p) s) ∧
      exec (.dec m) s = .next (readModifyWrite m down (fun old p => withZN (down old) p) s)) ∧
    exec .inx s = .next { s with x := up s.x, p := withZN (up s.x) s.p } ∧
    exec .iny s = .next { s with y := up s.y, p := withZN (up s.y) s.p } ∧
    exec .dex s = .next { s with x := down s.x, p := withZN (down s.x) s.p } ∧
    exec .dey s = .next { s with y := down s.y, p := withZN (down s.y) s.p }

/-! ### Control transfer, flags, system -/

/-- JMP (R170, R171, R83): the operand, or the word at the pointer whose high byte is read in the pointer's own page. -/
def Obligations.JumpsLoadPc : Prop :=
  Forms .JMP [(.abs, 0x4C, 3, false), (.ind, 0x6C, 5, false)] ∧
  ∀ (w : Word) (s : State),
    exec (.jmp (.abs w)) s = .next { s with pc := w } ∧
    (let lo := busRead w s
      let hi := busRead (BitVec.ofNat 16 (w.toNat / 256 * 256 + (w.toNat + 1) % 256)) lo.2
      exec (.jmp (.ind w)) s = .next { hi.2 with pc := BitVec.ofNat 16 (hi.1.toNat * 256 + lo.1.toNat) })

/-- JSR and RTS (R172, R173): the address of the JSR's last byte pushed high then low; RTS adds one to the pulled word. -/
def Obligations.SubroutineCallAndReturn : Prop :=
  Forms .JSR [(.abs, 0x20, 6, false)] ∧ Forms .RTS [(.impl, 0x60, 6, false)] ∧
  (∀ (w : Word) (s : State),
    exec (.jsr w) s = .next { s with
      ram := (s.ram.store none (stackCell s.sp) (hi8 (s.pc - 1))).store none (stackCell (s.sp - 1)) (lo8 (s.pc - 1))
      sp := s.sp - 2
      pc := w }) ∧
  ∀ s : State, exec .rts s = .next { s with
    sp := s.sp + 2
    pc := BitVec.ofNat 16
      ((ramByte s (stackCell (s.sp + 2))).toNat * 256 + (ramByte s (stackCell (s.sp + 1))).toNat + 1) }

/-- The eight branches (R174 to R182): the flag each tests, the target, and the penalty. -/
def Obligations.BranchesTestOneFlag : Prop :=
  Forms .BCC [(.rel, 0x90, 2, false)] ∧ Forms .BCS [(.rel, 0xB0, 2, false)] ∧
  Forms .BEQ [(.rel, 0xF0, 2, false)] ∧ Forms .BNE [(.rel, 0xD0, 2, false)] ∧
  Forms .BMI [(.rel, 0x30, 2, false)] ∧ Forms .BPL [(.rel, 0x10, 2, false)] ∧
  Forms .BVC [(.rel, 0x50, 2, false)] ∧ Forms .BVS [(.rel, 0x70, 2, false)] ∧
  ∀ (off : Byte) (s : State),
    exec (.bcc off) s = .next (branched (!s.p.getLsbD 0) off s) ∧
    exec (.bcs off) s = .next (branched (s.p.getLsbD 0) off s) ∧
    exec (.beq off) s = .next (branched (s.p.getLsbD 1) off s) ∧
    exec (.bne off) s = .next (branched (!s.p.getLsbD 1) off s) ∧
    exec (.bmi off) s = .next (branched (s.p.getLsbD 7) off s) ∧
    exec (.bpl off) s = .next (branched (!s.p.getLsbD 7) off s) ∧
    exec (.bvc off) s = .next (branched (!s.p.getLsbD 6) off s) ∧
    exec (.bvs off) s = .next (branched (s.p.getLsbD 6) off s)

/-- The flag instructions and NOP (R190 to R197): one bit of P, or nothing. -/
def Obligations.FlagInstructionsWriteOneFlag : Prop :=
  Forms .CLC [(.impl, 0x18, 2, false)] ∧ Forms .SEC [(.impl, 0x38, 2, false)] ∧
  Forms .CLI [(.impl, 0x58, 2, false)] ∧ Forms .SEI [(.impl, 0x78, 2, false)] ∧
  Forms .CLV [(.impl, 0xB8, 2, false)] ∧ Forms .CLD [(.impl, 0xD8, 2, false)] ∧
  Forms .SED [(.impl, 0xF8, 2, false)] ∧ Forms .NOP [(.impl, 0xEA, 2, false)] ∧
  ∀ s : State,
    exec .clc s = .next { s with p := s.p &&& 0xFE } ∧
    exec .sec s = .next { s with p := s.p ||| 0x01 } ∧
    exec .cli s = .next { s with p := s.p &&& 0xFB } ∧
    exec .sei s = .next { s with p := s.p ||| 0x04 } ∧
    exec .clv s = .next { s with p := s.p &&& 0xBF } ∧
    exec .cld s = .next { s with p := s.p &&& 0xF7 } ∧
    exec .sed s = .next { s with p := s.p ||| 0x08 } ∧
    exec .nop s = .next s

/-- BRK (R205): PC moves past the signature byte, PC and P with bits 4 and 5 set are pushed, P.I is set, PC is loaded from
$FFFE; whatever P.I held. RTI (R206): P pulled with bit 5 set, then PC, low byte first, with no addition. -/
def Obligations.BrkAndRti : Prop :=
  Forms .BRK [(.impl, 0x00, 7, false)] ∧ Forms .RTI [(.impl, 0x40, 6, false)] ∧
  ∀ s : State,
    exec .brk s = .next (entered (s.p ||| 0x30) 0xFFFE { s with pc := s.pc + 1 }) ∧
    exec .rti s = .next { s with
      p := ramByte s (stackCell (s.sp + 1)) ||| 0x20
      pc := BitVec.ofNat 16
        ((ramByte s (stackCell (s.sp + 3))).toNat * 256 + (ramByte s (stackCell (s.sp + 2))).toNat)
      sp := s.sp + 3 }

/-- RTI undoes an entry (R230, R226, R205): after the exception sequence with any status byte and vector, RTI resumes at
the pushed PC with SP restored and P the pushed byte with bit 5 set; so after an NMI or IRQ entry, from a state with bit 5
of P set, P is restored but for Break, which becomes 0. -/
def Obligations.RtiUndoesAnEntry : Prop :=
  ∀ (status : Byte) (vec : Word) (s : State),
    (∃ u, exec .rti (entered status vec s) = .next u ∧ u.pc = s.pc ∧ u.sp = s.sp ∧ u.p = status ||| 0x20) ∧
    (flag .U s.p = true → ∃ u, exec .rti (entered ((s.p &&& 0xEF) ||| 0x20) vec s) = .next u ∧
      u.pc = s.pc ∧ u.sp = s.sp ∧ u.p = s.p &&& 0xEF)

/-- The halt is entered only by an illegal opcode, never by an instruction of the legal set (R207), and no instruction
leaves it. -/
def Obligations.OnlyIllegalOpcodesHalt : Prop :=
  ∀ (i : Instr) (s : State), ∃ t, exec i s = .next t ∧
    (t.halted = true ↔ s.halted = true ∨ ∃ op, i = .illegal op)

/-! ### Frames -/

/-- What an instruction leaves unchanged in the CPU (R10, R12, R18): registers but those the table of R10 names, flags but
those the table of R18 names, PC but in control transfers, and the counters. -/
def Obligations.InstructionsKeepOtherRegistersAndFlags : Prop :=
  ∀ (i : Instr) (s t : State), exec i s = .next t →
    (writesA i = false → t.a = s.a) ∧ (writesX i = false → t.x = s.x) ∧ (writesY i = false → t.y = s.y) ∧
    (writesSp i = false → t.sp = s.sp) ∧ (writesPc i = false → t.pc = s.pc) ∧
    (t.p ^^^ s.p) &&& ~~~(flagMask i) = 0x00 ∧
    t.instructionCycle = s.instructionCycle ∧ t.current = s.current ∧ t.totalCycles = s.totalCycles ∧
    t.masterCycle = s.masterCycle ∧ t.timingMode = s.timingMode ∧ t.running = s.running ∧
    t.memEpoch = s.memEpoch ∧ t.inputs = s.inputs

/-- What an instruction leaves unchanged in memory (R46, R51, R89): every byte of RAM and of the cartridge, read through
the bus, but the bytes at the addresses the instruction stores to. For a mapper other than FlatROM, that an instruction's
reads leave the cartridge's bytes alone is the model's choice (log entry 7, DESIGN CHOICE, unsafe for a mapper whose reads
have effects), not a rule's. -/
def Obligations.InstructionsKeepOtherMemory : Prop :=
  ∀ (i : Instr) (s t : State), exec i s = .next t →
    ∀ a : Word, memoryAt s.cart a → (∀ w ∈ stored i s, leavesAlone s.cart w a) →
      (busRead a t).1 = (busRead a s).1

/-- An instruction whose loads and stores are all in plain memory reaches no device: the PPU, the cartridge, the interrupt
latch, the DMA stall, the free values and the outputs stay (R41, R55, R89). -/
def Obligations.PlainAccessesReachNoDevice : Prop :=
  ∀ (i : Instr) (s t : State), exec i s = .next t →
    (∀ w ∈ loaded i s ++ stored i s, plainMemory s.cart w = true) →
    t.ppu = s.ppu ∧ t.cart = s.cart ∧ t.pending = s.pending ∧ t.dmaStall = s.dmaStall ∧ t.draws = s.draws ∧
      t.outputs = s.outputs

/-! ### The bus -/

/-- Mirroring on the CPU bus (R46, R47): below $2000 an address reads and writes the RAM byte at the address modulo 2048, so
a write is seen through all four windows, no other byte of RAM and nothing else changes, and a read changes nothing; from
$2000 to $3FFF every address is the PPU register at the address modulo 8. -/
def Obligations.BusMirroring : Prop :=
  (∀ (a b : Word) (v : Byte) (s : State), a.toNat ≤ 0x1FFF → b.toNat ≤ 0x1FFF →
    (busRead b (busWrite a v s)).1 =
      (if a.toNat % 0x800 = b.toNat % 0x800 then v else (busRead b s).1) ∧
    busWrite a v s = { s with ram := (busWrite a v s).ram } ∧ (busRead b s).2 = s) ∧
  ∀ (a : Word) (v : Byte) (s : State), 0x2000 ≤ a.toNat → a.toNat ≤ 0x3FFF →
    busRead a s = busRead (BitVec.ofNat 16 (0x2000 + a.toNat % 8)) s ∧
    busWrite a v s = busWrite (BitVec.ofNat 16 (0x2000 + a.toNat % 8)) v s

/-- Reads (R44, R51, R55): no read changes a CPU register, RAM, the latch or a counter of time; a read of plain memory
changes nothing at all. The rules promise this of CPU, PPU and RAM. That no read changes the cartridge either is a rule
of FlatROM (R52), and for any other mapper the model's choice (log entry 7, DESIGN CHOICE, unsafe for a mapper whose reads
have effects). -/
def Obligations.ReadsHaveNoEffectOutsideDevices : Prop :=
  ∀ (a : Word) (s : State),
    (∃ q d, (busRead a s).2 = { s with ppu := q, draws := d }) ∧
    (plainMemory s.cart a = true → (busRead a s).2 = s) ∧
    ((a.toNat < 0x2000 ∨ 0x3FFF < a.toNat) → (busRead a s).2.ppu = s.ppu)

/-- Beyond the PPU registers (R48, R49, R51, R52, R56, R57). A write in $4000 to $401F other than $4014 changes no state of
CPU, PPU, RAM or Timing Coordinator and is handed out. FlatROM reads at $8000 to $FFFF the PRG byte at `a - 0x8000`, below
$8000 a drawn byte, on the PPU side the CHR byte at the address, and ignores every write; an unlisted PRG byte is the filler
of log entry 3. Any mapper reads the byte of the memory it maps the address to, and where it maps none a drawn byte; that
such a read changes nothing of the mapper is the model's choice (log entry 7). -/
def Obligations.OutsideWritesChangeNoCoreState : Prop :=
  ∀ (a : Word) (v : Byte) (s : State),
    (0x4000 ≤ a.toNat → a.toNat ≤ 0x401F → a.toNat ≠ 0x4014 →
      busWrite a v s = { s with outputs := .apuIoWrite a v :: s.outputs }) ∧
    (s.cart.mapper = .flatRom →
      (0x8000 ≤ a.toNat →
        busRead a s = ((s.cart.prgRom.find (a.toNat - 0x8000)).getD Config.prgFiller, s)) ∧
      (0x4020 ≤ a.toNat → a.toNat < 0x8000 →
        busRead a s = (Config.unmappedRead s.draws, { s with draws := s.draws + 1 })) ∧
      (0x4020 ≤ a.toNat → busWrite a v s = s) ∧
      ∀ k, k < 0x2000 → ppuRead k s = (cartByte s.cart k .chrRom, s) ∧ ppuWrite k v s = s) ∧
    (0x4020 ≤ a.toNat → busRead a s =
      match mapCpuAddress s.cart a with
      | some (off, kind) => (cartByte s.cart off kind, s)
      | none => (Config.unmappedRead s.draws, { s with draws := s.draws + 1 }))

/-! ### The PPU -/

/-- The PPU's cycle touches nothing of the CPU but the NMI latch, and nothing of the PPU that a register access sets
(R10, R263, R265, R267): not `v`, `t`, `w`, the read buffer, `oamAddr`, the control registers, VRAM, OAM or palette. -/
def Obligations.PpuCycleTouchesOnlyItsOwnState : Prop :=
  ∀ s : State, let t := ppuCycle s
    (∃ q n d o, t = { s with ppu := q, pending := { s.pending with nmi := n }, draws := d, outputs := o }) ∧
    t.ppu.ctrl = s.ppu.ctrl ∧ t.ppu.mask = s.ppu.mask ∧ t.ppu.oamAddr = s.ppu.oamAddr ∧
    t.ppu.scrollX = s.ppu.scrollX ∧ t.ppu.scrollY = s.ppu.scrollY ∧ t.ppu.v = s.ppu.v ∧ t.ppu.t = s.ppu.t ∧
    t.ppu.w = s.ppu.w ∧ t.ppu.readBuffer = s.ppu.readBuffer ∧ t.ppu.vram = s.ppu.vram ∧ t.ppu.oam = s.ppu.oam ∧
    t.ppu.palette = s.ppu.palette

/-- VBlank (R266, R268, R271): at (241, 1) status bit 7 is set, the edge is emitted and NMI is requested exactly if PPUCTRL
bit 7 is set; at (261, 1) status bits 7, 6, 5 are cleared and the edge is emitted; at every other position the cycle
changes neither status bit 7 nor the latch nor the outputs. -/
def Obligations.VBlankEdgesAndNmi : Prop :=
  ∀ s : State, let t := ppuCycle s
    (s.ppu.scanline = 241 ∧ s.ppu.cycle = 1 →
      t.ppu.status = s.ppu.status ||| 0x80 ∧ t.outputs = .vblankStarted :: s.outputs ∧
      t.pending = { s.pending with nmi := s.pending.nmi || s.ppu.ctrl.getLsbD 7 }) ∧
    (s.ppu.scanline = 261 ∧ s.ppu.cycle = 1 →
      t.ppu.status = s.ppu.status &&& 0x1F ∧ t.outputs = .vblankEnded :: s.outputs ∧ t.pending = s.pending) ∧
    (¬(s.ppu.scanline = 241 ∧ s.ppu.cycle = 1) → ¬(s.ppu.scanline = 261 ∧ s.ppu.cycle = 1) →
      t.ppu.status.getLsbD 7 = s.ppu.status.getLsbD 7 ∧ t.outputs = s.outputs ∧ t.pending = s.pending)

/-- The visible scanlines (R264, R272): at cycle 64 all 32 bytes of secondary OAM become 0xFF, rendering or not; a cycle
other than (261, 1) leaves status bits 4 to 0 and clears neither bit 6 nor bit 5; with rendering disabled, and outside
cycles 1 to 256 of scanlines 0 to 239, it sets neither. -/
def Obligations.VisibleScanlineActions : Prop :=
  ∀ s : State, let t := ppuCycle s
    (s.ppu.scanline ≤ 239 → s.ppu.cycle = 64 → ∀ k, k < 32 → secondaryByte t k = 0xFF) ∧
    (¬(s.ppu.scanline = 261 ∧ s.ppu.cycle = 1) →
      t.ppu.status &&& 0x1F = s.ppu.status &&& 0x1F ∧
      s.ppu.status &&& t.ppu.status &&& 0x60 = s.ppu.status &&& 0x60 ∧
      ((s.ppu.mask &&& 0x18 = 0x00 ∨ 239 < s.ppu.scanline ∨ s.ppu.cycle = 0 ∨ 256 < s.ppu.cycle) →
        t.ppu.status &&& 0x60 = s.ppu.status &&& 0x60))

/-- The position (R269, R270): the next cycle, the next scanline after cycle 340, the next frame after scanline 261 with
`oddFrame` toggled; and the skip of (261, 339) on an odd frame with background or sprites shown. -/
def Obligations.PpuPositionAdvances : Prop :=
  ∀ s : State, s.ppu.scanline ≤ 261 → s.ppu.cycle ≤ 340 → let t := (ppuCycle s).ppu
    let skip := s.ppu.scanline = 261 ∧ s.ppu.cycle = 338 ∧ s.ppu.oddFrame = true ∧ s.ppu.mask &&& 0x18 ≠ 0x00
    (skip → t.cycle = 340 ∧ t.scanline = 261 ∧ t.frame = s.ppu.frame ∧ t.oddFrame = s.ppu.oddFrame) ∧
    (¬skip → s.ppu.cycle < 340 →
      t.cycle = s.ppu.cycle + 1 ∧ t.scanline = s.ppu.scanline ∧ t.frame = s.ppu.frame ∧ t.oddFrame = s.ppu.oddFrame) ∧
    (s.ppu.cycle = 340 → s.ppu.scanline < 261 →
      t.cycle = 0 ∧ t.scanline = s.ppu.scanline + 1 ∧ t.frame = s.ppu.frame ∧ t.oddFrame = s.ppu.oddFrame) ∧
    (s.ppu.cycle = 340 → s.ppu.scanline = 261 →
      t.cycle = 0 ∧ t.scanline = 0 ∧ t.frame = s.ppu.frame + 1 ∧ t.oddFrame = !s.ppu.oddFrame)

/-- One frame (R261, R270, R271): with rendering disabled, from any position, 89342 PPU cycles return to that position,
advance the frame counter by 1, toggle `oddFrame`, and give exactly one VBlank-start edge and one VBlank-end edge. -/
def Obligations.FrameHas89342Cycles : Prop :=
  ∀ s : State, s.ppu.scanline ≤ 261 → s.ppu.cycle ≤ 340 → s.ppu.mask &&& 0x18 = 0x00 →
    let t := ppuCycles 89342 s
    t.ppu.scanline = s.ppu.scanline ∧ t.ppu.cycle = s.ppu.cycle ∧ t.ppu.frame = s.ppu.frame + 1 ∧
    t.ppu.oddFrame = !s.ppu.oddFrame ∧
    vblankStarts t = vblankStarts s + 1 ∧ vblankEnds t = vblankEnds s + 1

/-- The odd frame (R261, R269): with rendering enabled, a frame begun at (0, 0) has 89341 PPU cycles when `oddFrame` is 1
and 89342 when it is 0, and one VBlank-start edge. -/
def Obligations.OddFrameSkipsOneCycle : Prop :=
  ∀ s : State, s.ppu.scanline = 0 → s.ppu.cycle = 0 → s.ppu.mask &&& 0x18 ≠ 0x00 →
    let t := ppuCycles (if s.ppu.oddFrame then 89341 else 89342) s
    t.ppu.scanline = 0 ∧ t.ppu.cycle = 0 ∧ t.ppu.frame = s.ppu.frame + 1 ∧ t.ppu.oddFrame = !s.ppu.oddFrame ∧
    vblankStarts t = vblankStarts s + 1

/-- PPUCTRL (R275): the write changes `ctrl`, and requests NMI at once exactly when it newly enables NMI while the VBlank
flag is set. -/
def Obligations.PpuCtrlWriteRaisesNmi : Prop :=
  ∀ (val : Byte) (s : State),
    busWrite 0x2000 val s = { s with
      ppu := { s.ppu with ctrl := val }
      pending := { s.pending with
        nmi := s.pending.nmi || (!s.ppu.ctrl.getLsbD 7 && val.getLsbD 7 && s.ppu.status.getLsbD 7) } }

/-- PPUSTATUS (R277): the read returns the three flags with zeros below, clears VBlank and the write toggle, and nothing
else changes; so does an LDA of it, which loads the byte. -/
def Obligations.PpuStatusReadClearsVBlank : Prop :=
  ∀ s : State, let after := { s with ppu := { s.ppu with status := s.ppu.status &&& 0x7F, w := false } }
    busRead 0x2002 s = (s.ppu.status &&& 0xE0, after) ∧
    exec (.lda (.mem (.abs 0x2002))) s = .next { after with
      a := s.ppu.status &&& 0xE0, p := withZN (s.ppu.status &&& 0xE0) s.p }

/-- PPUMASK, OAMADDR, OAMDATA and the read-only PPUSTATUS (R276, R278, R279, R283): writes, and an OAMDATA read, which
leaves the address; a store through OAMDATA is read back at its index and moves no other byte of OAM. -/
def Obligations.OamRegistersAndMask : Prop :=
  ∀ (val : Byte) (s : State),
    busWrite 0x2001 val s = { s with ppu := { s.ppu with mask := val } } ∧
    busWrite 0x2002 val s = s ∧
    busWrite 0x2003 val s = { s with ppu := { s.ppu with oamAddr := val } } ∧
    busRead 0x2004 s = (oamByte s s.ppu.oamAddr.toNat, s) ∧
    (let t := busWrite 0x2004 val s
     t = { s with ppu := { s.ppu with oam := t.ppu.oam, oamAddr := BitVec.ofNat 8 ((s.ppu.oamAddr.toNat + 1) % 256) } } ∧
       ∀ k, oamByte t k = if k = s.ppu.oamAddr.toNat then val else oamByte s k)

/-- PPUSCROLL and PPUADDR (R280, R281): the shared toggle, the mask of the first PPUADDR byte, and the VRAM address after
the pair. -/
def Obligations.ScrollAndAddressShareTheToggle : Prop :=
  ∀ (hi lo : Byte) (s : State),
    (s.ppu.w = false →
      busWrite 0x2005 hi s = { s with ppu := { s.ppu with scrollX := hi, w := true } } ∧
      busWrite 0x2006 hi s = { s with ppu := { s.ppu with
        t := BitVec.ofNat 15 (s.ppu.t.toNat % 256 + hi.toNat % 64 * 256), w := true } } ∧
      busWrite 0x2006 lo (busWrite 0x2006 hi s) = { s with ppu := { s.ppu with
        t := BitVec.ofNat 15 (hi.toNat % 64 * 256 + lo.toNat)
        v := BitVec.ofNat 15 (hi.toNat % 64 * 256 + lo.toNat) } }) ∧
    (s.ppu.w = true →
      busWrite 0x2005 lo s = { s with ppu := { s.ppu with scrollY := lo, w := false } } ∧
      busWrite 0x2006 lo s = { s with ppu := { s.ppu with
        t := BitVec.ofNat 15 (s.ppu.t.toNat / 256 * 256 + lo.toNat)
        v := BitVec.ofNat 15 (s.ppu.t.toNat / 256 * 256 + lo.toNat)
        w := false } })

/-- PPUDATA (R282): the access goes to `v` modulo $4000; below $3F00 a read returns the buffer and refills it, a palette
read returns the palette byte and buffers the nametable byte underneath; the access adds 1 or 32 to `v` modulo 2^15. -/
def Obligations.PpuDataReadsThroughTheBuffer : Prop :=
  ∀ (val : Byte) (s : State),
    let a := s.ppu.v.toNat % 0x4000
    let next : VAddr := BitVec.ofNat 15 ((s.ppu.v.toNat + if s.ppu.ctrl.getLsbD 2 then 32 else 1) % 0x8000)
    let w := ppuWrite a val s
    busWrite 0x2007 val s = { w with ppu := { w.ppu with v := next } } ∧
    (a ≤ 0x3EFF → let q := ppuRead a s
      busRead 0x2007 s = (s.ppu.readBuffer, { q.2 with ppu := { q.2.ppu with readBuffer := q.1, v := next } })) ∧
    (0x3F00 ≤ a → let q := ppuRead (a - 0x1000) s
      busRead 0x2007 s = ((ppuRead a s).1, { q.2 with ppu := { q.2.ppu with readBuffer := q.1, v := next } }))

/-- Nametable mirroring and the PPU map (R58, R59, R60): the four formulas, $3000 to $3EFF as $2000 to $2EFF, the palette
repeated every 32 bytes and not aliased inside them. -/
def Obligations.NametableAndPaletteMirroring : Prop :=
  (∀ a : Nat, a < 0x4000 →
    ntIndex .horizontal a = ((a % 0x1000 / 0x400 / 2) * 0x400 + a % 0x400) ∧
    ntIndex .vertical a = ((a % 0x1000 / 0x400 % 2) * 0x400 + a % 0x400) ∧
    ntIndex .singleScreen a = a % 0x400 ∧ ntIndex .fourScreen a = a % 0x1000) ∧
  ∀ (s : State) (v : Byte) (k j : Nat),
    (k < 0xF00 → ppuRead (0x3000 + k) s = ppuRead (0x2000 + k) s ∧ ppuWrite (0x3000 + k) v s = ppuWrite (0x2000 + k) v s) ∧
    (k < 0x100 → j < 0x100 →
      (ppuRead (0x3F00 + j) (ppuWrite (0x3F00 + k) v s)).1 =
        if k % 32 = j % 32 then v else (ppuRead (0x3F00 + j) s).1) ∧
    (k < 0x1F00 → j < 0x1F00 →
      (ppuRead (0x2000 + j) (ppuWrite (0x2000 + k) v s)).1 =
        if ntIndex s.cart.mirroring (0x2000 + k) = ntIndex s.cart.mirroring (0x2000 + j) then v
        else (ppuRead (0x2000 + j) s).1)

/-- OAM DMA (R290, R291): the 256 bytes of the page, read through the bus in ascending order with whatever effect a read
has there, land at OAM indexes 0 to 255; the stall is 513 cycles, 514 on an odd cycle count. From a page of plain memory
nothing else changes; the OAM address is neither used nor changed. -/
def Obligations.OamDmaCopiesAPageAndStalls : Prop :=
  ∀ (val : Byte) (s : State), let t := busWrite 0x4014 val s
    t = { (List.range 256).foldl (fun u i =>
          let r := busRead (BitVec.ofNat 16 (val.toNat * 256 + i)) u
          { r.2 with ppu := { r.2.ppu with oam := r.2.ppu.oam.store none i r.1 } }) s with
        dmaStall := 513 + s.totalCycles % 2 } ∧
    ((∀ k, k < 256 → plainMemory s.cart (BitVec.ofNat 16 (val.toNat * 256 + k)) = true) →
      (∀ k, k < 256 → oamByte t k = (busRead (BitVec.ofNat 16 (val.toNat * 256 + k)) s).1) ∧
      t = { s with ppu := { s.ppu with oam := t.ppu.oam }, dmaStall := 513 + s.totalCycles % 2 })

/-- During a DMA stall (R291, R301): the tick does not step the CPU, takes no interrupt, and runs the three PPU cycles; the
host's due requests are latched all the same (R221; log entry 9). -/
def Obligations.StalledTickHoldsTheCpu : Prop :=
  ∀ s : State, s.timingMode = .ntsc → 0 < s.dmaStall → let d := delivered s
    let t := stallTick d
    tick s = .next t ∧ SameCpu s t ∧ t.dmaStall = s.dmaStall - 1 ∧ t.inputs = d.inputs ∧
    (d.pending.nmi = true → t.pending.nmi = true) ∧ t.pending.irq = d.pending.irq ∧ t.pending.reset = d.pending.reset

/-! ### Reset, timing mode, what cannot be observed -/

/-- The host's reset (R320, R321, R30): every field the rules make definite, from any state and any mapper, PC the word at
$FFFC read after the mapper's reset. -/
def Obligations.HostResetGivesTheResetState : Prop :=
  ∀ s : State, let t := hostReset s
    t.a = 0x00 ∧ t.x = 0x00 ∧ t.y = 0x00 ∧ t.sp = 0xFD ∧ t.p = 0x24 ∧ t.halted = false ∧
    t.pending = ⟨false, false, false⟩ ∧ t.instructionCycle = 0 ∧ t.current = none ∧ t.penaltyLeft = 0 ∧
    t.totalCycles = 0 ∧ t.masterCycle = 0 ∧ t.dmaStall = 0 ∧ t.timingMode = .ntsc ∧
    t.cart = mapperReset s.cart ∧
    t.ppu.ctrl = 0x00 ∧ t.ppu.mask = 0x00 ∧ t.ppu.status = 0x80 ∧ t.ppu.oamAddr = 0x00 ∧ t.ppu.scrollX = 0x00 ∧
    t.ppu.scrollY = 0x00 ∧ t.ppu.v = 0x0000 ∧ t.ppu.t = 0x0000 ∧ t.ppu.w = false ∧ t.ppu.readBuffer = 0x00 ∧
    t.ppu.scanline = 241 ∧ t.ppu.cycle = 0 ∧ t.ppu.frame = 0 ∧ t.ppu.oddFrame = false ∧
    (let lo := busRead 0xFFFC { s with cart := t.cart }
      let hi := busRead 0xFFFD lo.2
      t.pc = BitVec.ofNat 16 (lo.1.toNat + 256 * hi.1.toNat))

/-- A second reset gives the same state (R325), for every cartridge whose mapper's own reset is idempotent: nothing differs but
`memEpoch`, which numbers the unspecified memory contents (the model's own field, log entry 4), and what the vector read
gives; where the mapper maps the vector ("the vector bytes are the same"), that does not differ either. FlatROM is such a
cartridge. -/
def Obligations.SecondResetChangesNothing : Prop :=
  ∀ s : State, mapperReset (mapperReset s.cart) = mapperReset s.cart →
    let t := hostReset s
    let u := hostReset t
    u = { t with memEpoch := t.memEpoch + 1, pc := u.pc, draws := u.draws } ∧
    ((mapCpuAddress t.cart 0xFFFC).isSome = true → (mapCpuAddress t.cart 0xFFFD).isSome = true →
      u = { t with memEpoch := t.memEpoch + 1 })

/-- PAL is refused (R305): setting it is refused, and so is ticking under it. -/
def Obligations.PalIsRefused : Prop :=
  ∀ s : State, setTimingMode .pal s = .refused .palTiming ∧
    (s.timingMode = .pal → tick s = .refused .palTiming ∧ step s = .refused .palTiming)

/-- The live Break bit cannot be observed (R16): two states that differ in it alone step to states that differ at most
in it, and end in no other way. -/
def Obligations.LiveBreakBitIsUnobservable : Prop :=
  ∀ s t : State, s.Inv → t.Inv → SameButBreak s t →
    ∃ s' t', step s = .next s' ∧ step t = .next t' ∧ SameButBreak s' t'

/-- Decimal mode is never entered (R136): two states that differ in P.D alone give, under every instruction but the two
that push P, states that differ at most in P.D; so A and every other flag after ADC or SBC are the same. -/
def Obligations.DecimalFlagChangesNoResult : Prop :=
  ∀ (i : Instr) (s t : State), SameButDecimal s t → i ≠ .php → i ≠ .brk →
    ∃ s' t', exec i s = .next s' ∧ exec i t = .next t' ∧ SameButDecimal s' t'
end

