-- ==== Sys2Proof/Laws/Memory.lean ====
section
/-! SUPPORT. The laws of memories: read after write, and the canonical form is kept by every operation. -/

namespace Sys2Proof.Machine

theorem Memory.find_put (m : Memory) (k : Nat) (v : Byte) (j : Nat) :
    (Memory.put m k v).find j = if k = j then some v else m.find j := by
  induction m with
  | nil => simp [Memory.put, Memory.find]
  | cons c m ih =>
    obtain ⟨a, b⟩ := c
    simp only [Memory.put]
    split
    · simp [Memory.find]
    · split
      · next h =>
        subst h
        simp only [Memory.find]
        split <;> rfl
      · next h1 h2 =>
        simp only [Memory.find, ih]
        by_cases hj : a = j
        · subst hj
          simp [h2]
        · simp [hj]

theorem Memory.find_drop_other (m : Memory) (k j : Nat) (h : j ≠ k) : (Memory.drop m k).find j = m.find j := by
  induction m with
  | nil => rfl
  | cons c m ih =>
    obtain ⟨a, b⟩ := c
    by_cases ha : a = k
    · subst ha
      simp [Memory.drop, Memory.find, Ne.symm h]
    · simp [Memory.drop, Memory.find, ha, ih]

theorem Memory.risingFrom_weaken {lo lo' : Nat} {m : Memory} (h : lo' ≤ lo) (hr : Memory.risingFrom lo m = true) :
    Memory.risingFrom lo' m = true := by
  cases m with
  | nil => rfl
  | cons c m =>
    simp only [Memory.risingFrom, Bool.and_eq_true, decide_eq_true_eq] at hr ⊢
    exact ⟨Nat.le_trans h hr.1, hr.2⟩

theorem Memory.find_below_rising {lo : Nat} {m : Memory} (hr : Memory.risingFrom lo m = true) {k : Nat} (h : k < lo) :
    m.find k = none := by
  induction m generalizing lo with
  | nil => rfl
  | cons c m ih =>
    simp only [Memory.risingFrom, Bool.and_eq_true, decide_eq_true_eq] at hr
    simp only [Memory.find]
    rw [if_neg (by omega)]
    exact ih hr.2 (by omega)

theorem Memory.find_drop_same {lo : Nat} {m : Memory} (hr : Memory.risingFrom lo m = true) (k : Nat) :
    (Memory.drop m k).find k = none := by
  induction m generalizing lo with
  | nil => rfl
  | cons c m ih =>
    simp only [Memory.risingFrom, Bool.and_eq_true, decide_eq_true_eq] at hr
    by_cases ha : c.1 = k
    · simp only [Memory.drop, if_pos ha]
      exact Memory.find_below_rising hr.2 (by omega)
    · simp only [Memory.drop, Memory.find, if_neg ha]
      exact ih hr.2

theorem Memory.risingFrom_put {lo : Nat} {m : Memory} (hr : Memory.risingFrom lo m = true) {k : Nat} (v : Byte)
    (h : lo ≤ k) : Memory.risingFrom lo (Memory.put m k v) = true := by
  induction m generalizing lo with
  | nil => simp [Memory.put, Memory.risingFrom, h]
  | cons c m ih =>
    simp only [Memory.risingFrom, Bool.and_eq_true, decide_eq_true_eq] at hr
    simp only [Memory.put]
    split
    · next hk => simp [Memory.risingFrom, h, hr.2]; omega
    · split
      · next hk => subst hk; simp [Memory.risingFrom, h, hr.2]
      · next h1 h2 =>
        simp only [Memory.risingFrom, Bool.and_eq_true, decide_eq_true_eq]
        exact ⟨hr.1, ih hr.2 (by omega)⟩

theorem Memory.risingFrom_drop {lo : Nat} {m : Memory} (hr : Memory.risingFrom lo m = true) (k : Nat) :
    Memory.risingFrom lo (Memory.drop m k) = true := by
  induction m generalizing lo with
  | nil => rfl
  | cons c m ih =>
    simp only [Memory.risingFrom, Bool.and_eq_true, decide_eq_true_eq] at hr
    simp only [Memory.drop]
    split
    · exact Memory.risingFrom_weaken (by omega) hr.2
    · simp only [Memory.risingFrom, Bool.and_eq_true, decide_eq_true_eq]
      exact ⟨hr.1, ih hr.2⟩

theorem Memory.all_put {f : Host.Cell → Bool} {m : Memory} (h : m.all f = true) {k : Nat} {v : Byte} (hv : f (k, v) = true) :
    (Memory.put m k v).all f = true := by
  induction m with
  | nil => simp [Memory.put, hv]
  | cons c m ih =>
    simp only [List.all_cons, Bool.and_eq_true] at h
    simp only [Memory.put]
    split
    · simp [hv, h.1]
      simpa using h.2
    · split
      · simp [hv]
        simpa using h.2
      · simp only [List.all_cons, Bool.and_eq_true]
        exact ⟨h.1, ih h.2⟩

theorem Memory.all_drop {f : Host.Cell → Bool} {m : Memory} (h : m.all f = true) (k : Nat) :
    (Memory.drop m k).all f = true := by
  induction m with
  | nil => rfl
  | cons c m ih =>
    simp only [List.all_cons, Bool.and_eq_true] at h
    simp only [Memory.drop]
    split
    · exact h.2
    · simp only [List.all_cons, Bool.and_eq_true]
      exact ⟨h.1, ih h.2⟩

/-- A write keeps the canonical form. -/
theorem Memory.wf_store {blank : Option Byte} {m : Memory} (h : m.wf blank = true) (k : Nat) (v : Byte) :
    (m.store blank k v).wf blank = true := by
  simp only [Memory.wf, Bool.and_eq_true] at h ⊢
  simp only [Memory.store]
  split
  · exact ⟨Memory.risingFrom_drop h.1 k, Memory.all_drop h.2 k⟩
  · next hb =>
    exact ⟨Memory.risingFrom_put h.1 v (Nat.zero_le k), Memory.all_put h.2 (by simpa using hb)⟩

/-- A write inside a memory's size stays inside it. -/
theorem Memory.below_store {blank : Option Byte} {n : Nat} {m : Memory} (h : m.below n = true) {k : Nat} (hk : k < n)
    (v : Byte) : (m.store blank k v).below n = true := by
  simp only [Memory.below, Memory.store] at h ⊢
  split
  · exact Memory.all_drop h k
  · exact Memory.all_put h (by simpa using hk)

/-- Read after write in a memory whose unlisted cells have no value. -/
@[simp] theorem Memory.find_store_none (m : Memory) (k : Nat) (v : Byte) (j : Nat) :
    (m.store none k v).find j = if k = j then some v else m.find j := by
  simp [Memory.store, Memory.find_put]

/-- Read after write in a memory whose unlisted cells read as a byte: the value written, and no other cell changes. -/
theorem Memory.getD_find_store {b : Byte} {m : Memory} (h : m.wf (some b) = true) (k : Nat) (v : Byte) (j : Nat) :
    ((m.store (some b) k v).find j).getD b = if k = j then v else (m.find j).getD b := by
  simp only [Memory.wf, Bool.and_eq_true] at h
  simp only [Memory.store]
  split
  · next hb =>
    by_cases hj : k = j
    · subst hj
      simp [Memory.find_drop_same h.1, Option.some.inj hb]
    · rw [Memory.find_drop_other m k j (Ne.symm hj), if_neg hj]
  · rw [Memory.find_put]
    split <;> rfl

/-- Equal contents are equal lists: two canonical memories that list the same bytes are the same list. -/
theorem Memory.ext_of_risingFrom {lo : Nat} {m n : Memory} (hm : Memory.risingFrom lo m = true)
    (hn : Memory.risingFrom lo n = true) (h : ∀ k, m.find k = n.find k) : m = n := by
  induction m generalizing lo n with
  | nil =>
    cases n with
    | nil => rfl
    | cons c n => have := h c.1; simp [Memory.find] at this
  | cons c m ih =>
    cases n with
    | nil => have := h c.1; simp [Memory.find] at this
    | cons d n =>
      simp only [Memory.risingFrom, Bool.and_eq_true, decide_eq_true_eq] at hm hn
      have key : c.1 = d.1 := by
        rcases Nat.lt_trichotomy c.1 d.1 with hlt | heq | hgt
        · have := h c.1
          simp only [Memory.find, if_true] at this
          rw [if_neg (by omega), Memory.find_below_rising hn.2 (by omega)] at this
          simp at this
        · exact heq
        · have := h d.1
          simp only [Memory.find, if_true] at this
          rw [if_neg (by omega), Memory.find_below_rising hm.2 (by omega)] at this
          simp at this
      have hv : c.2 = d.2 := by
        have := h c.1
        simpa [Memory.find, key] using this
      have hmn : m = n := by
        refine ih hm.2 (by rw [key]; exact hn.2) (fun k => ?_)
        have := h k
        simp only [Memory.find, key] at this
        by_cases hk : d.1 = k
        · subst hk
          rw [Memory.find_below_rising hm.2 (by omega), Memory.find_below_rising hn.2 (by omega)]
        · simpa [hk] using this
      rw [hmn, Prod.ext key hv]

end Sys2Proof.Machine
end

