-- ==== Sys2Proof/Laws/State.lean ====
section
/-! SUPPORT. One lemma per field per named update of the state, each true by unfolding the update. -/

namespace Sys2Proof.Machine

@[simp] theorem requestInterrupt_a (k : InterruptKind) (s : State) : (requestInterrupt k s).a = s.a := rfl
@[simp] theorem requestInterrupt_x (k : InterruptKind) (s : State) : (requestInterrupt k s).x = s.x := rfl
@[simp] theorem requestInterrupt_y (k : InterruptKind) (s : State) : (requestInterrupt k s).y = s.y := rfl
@[simp] theorem requestInterrupt_pc (k : InterruptKind) (s : State) : (requestInterrupt k s).pc = s.pc := rfl
@[simp] theorem requestInterrupt_sp (k : InterruptKind) (s : State) : (requestInterrupt k s).sp = s.sp := rfl
@[simp] theorem requestInterrupt_p (k : InterruptKind) (s : State) : (requestInterrupt k s).p = s.p := rfl
@[simp] theorem requestInterrupt_instructionCycle (k : InterruptKind) (s : State) : (requestInterrupt k s).instructionCycle = s.instructionCycle := rfl
@[simp] theorem requestInterrupt_current (k : InterruptKind) (s : State) : (requestInterrupt k s).current = s.current := rfl
@[simp] theorem requestInterrupt_penaltyLeft (k : InterruptKind) (s : State) : (requestInterrupt k s).penaltyLeft = s.penaltyLeft := rfl
@[simp] theorem requestInterrupt_totalCycles (k : InterruptKind) (s : State) : (requestInterrupt k s).totalCycles = s.totalCycles := rfl
@[simp] theorem requestInterrupt_halted (k : InterruptKind) (s : State) : (requestInterrupt k s).halted = s.halted := rfl
@[simp] theorem requestInterrupt_pending (k : InterruptKind) (s : State) : (requestInterrupt k s).pending = s.pending.request k := rfl
@[simp] theorem requestInterrupt_ram (k : InterruptKind) (s : State) : (requestInterrupt k s).ram = s.ram := rfl
@[simp] theorem requestInterrupt_cart (k : InterruptKind) (s : State) : (requestInterrupt k s).cart = s.cart := rfl
@[simp] theorem requestInterrupt_ppu (k : InterruptKind) (s : State) : (requestInterrupt k s).ppu = s.ppu := rfl
@[simp] theorem requestInterrupt_masterCycle (k : InterruptKind) (s : State) : (requestInterrupt k s).masterCycle = s.masterCycle := rfl
@[simp] theorem requestInterrupt_timingMode (k : InterruptKind) (s : State) : (requestInterrupt k s).timingMode = s.timingMode := rfl
@[simp] theorem requestInterrupt_running (k : InterruptKind) (s : State) : (requestInterrupt k s).running = s.running := rfl
@[simp] theorem requestInterrupt_dmaStall (k : InterruptKind) (s : State) : (requestInterrupt k s).dmaStall = s.dmaStall := rfl
@[simp] theorem requestInterrupt_draws (k : InterruptKind) (s : State) : (requestInterrupt k s).draws = s.draws := rfl
@[simp] theorem requestInterrupt_memEpoch (k : InterruptKind) (s : State) : (requestInterrupt k s).memEpoch = s.memEpoch := rfl
@[simp] theorem requestInterrupt_inputs (k : InterruptKind) (s : State) : (requestInterrupt k s).inputs = s.inputs := rfl
@[simp] theorem requestInterrupt_outputs (k : InterruptKind) (s : State) : (requestInterrupt k s).outputs = s.outputs := rfl

@[simp] theorem emit_a (o : Output) (s : State) : (emit o s).a = s.a := rfl
@[simp] theorem emit_x (o : Output) (s : State) : (emit o s).x = s.x := rfl
@[simp] theorem emit_y (o : Output) (s : State) : (emit o s).y = s.y := rfl
@[simp] theorem emit_pc (o : Output) (s : State) : (emit o s).pc = s.pc := rfl
@[simp] theorem emit_sp (o : Output) (s : State) : (emit o s).sp = s.sp := rfl
@[simp] theorem emit_p (o : Output) (s : State) : (emit o s).p = s.p := rfl
@[simp] theorem emit_instructionCycle (o : Output) (s : State) : (emit o s).instructionCycle = s.instructionCycle := rfl
@[simp] theorem emit_current (o : Output) (s : State) : (emit o s).current = s.current := rfl
@[simp] theorem emit_penaltyLeft (o : Output) (s : State) : (emit o s).penaltyLeft = s.penaltyLeft := rfl
@[simp] theorem emit_totalCycles (o : Output) (s : State) : (emit o s).totalCycles = s.totalCycles := rfl
@[simp] theorem emit_halted (o : Output) (s : State) : (emit o s).halted = s.halted := rfl
@[simp] theorem emit_pending (o : Output) (s : State) : (emit o s).pending = s.pending := rfl
@[simp] theorem emit_ram (o : Output) (s : State) : (emit o s).ram = s.ram := rfl
@[simp] theorem emit_cart (o : Output) (s : State) : (emit o s).cart = s.cart := rfl
@[simp] theorem emit_ppu (o : Output) (s : State) : (emit o s).ppu = s.ppu := rfl
@[simp] theorem emit_masterCycle (o : Output) (s : State) : (emit o s).masterCycle = s.masterCycle := rfl
@[simp] theorem emit_timingMode (o : Output) (s : State) : (emit o s).timingMode = s.timingMode := rfl
@[simp] theorem emit_running (o : Output) (s : State) : (emit o s).running = s.running := rfl
@[simp] theorem emit_dmaStall (o : Output) (s : State) : (emit o s).dmaStall = s.dmaStall := rfl
@[simp] theorem emit_draws (o : Output) (s : State) : (emit o s).draws = s.draws := rfl
@[simp] theorem emit_memEpoch (o : Output) (s : State) : (emit o s).memEpoch = s.memEpoch := rfl
@[simp] theorem emit_inputs (o : Output) (s : State) : (emit o s).inputs = s.inputs := rfl
@[simp] theorem emit_outputs (o : Output) (s : State) : (emit o s).outputs = o :: s.outputs := rfl

@[simp] theorem ramWrite_a (k : Nat) (v : Byte) (s : State) : (ramWrite k v s).a = s.a := rfl
@[simp] theorem ramWrite_x (k : Nat) (v : Byte) (s : State) : (ramWrite k v s).x = s.x := rfl
@[simp] theorem ramWrite_y (k : Nat) (v : Byte) (s : State) : (ramWrite k v s).y = s.y := rfl
@[simp] theorem ramWrite_pc (k : Nat) (v : Byte) (s : State) : (ramWrite k v s).pc = s.pc := rfl
@[simp] theorem ramWrite_sp (k : Nat) (v : Byte) (s : State) : (ramWrite k v s).sp = s.sp := rfl
@[simp] theorem ramWrite_p (k : Nat) (v : Byte) (s : State) : (ramWrite k v s).p = s.p := rfl
@[simp] theorem ramWrite_instructionCycle (k : Nat) (v : Byte) (s : State) : (ramWrite k v s).instructionCycle = s.instructionCycle := rfl
@[simp] theorem ramWrite_current (k : Nat) (v : Byte) (s : State) : (ramWrite k v s).current = s.current := rfl
@[simp] theorem ramWrite_penaltyLeft (k : Nat) (v : Byte) (s : State) : (ramWrite k v s).penaltyLeft = s.penaltyLeft := rfl
@[simp] theorem ramWrite_totalCycles (k : Nat) (v : Byte) (s : State) : (ramWrite k v s).totalCycles = s.totalCycles := rfl
@[simp] theorem ramWrite_halted (k : Nat) (v : Byte) (s : State) : (ramWrite k v s).halted = s.halted := rfl
@[simp] theorem ramWrite_pending (k : Nat) (v : Byte) (s : State) : (ramWrite k v s).pending = s.pending := rfl
@[simp] theorem ramWrite_ram (k : Nat) (v : Byte) (s : State) : (ramWrite k v s).ram = s.ram.store none k v := rfl
@[simp] theorem ramWrite_cart (k : Nat) (v : Byte) (s : State) : (ramWrite k v s).cart = s.cart := rfl
@[simp] theorem ramWrite_ppu (k : Nat) (v : Byte) (s : State) : (ramWrite k v s).ppu = s.ppu := rfl
@[simp] theorem ramWrite_masterCycle (k : Nat) (v : Byte) (s : State) : (ramWrite k v s).masterCycle = s.masterCycle := rfl
@[simp] theorem ramWrite_timingMode (k : Nat) (v : Byte) (s : State) : (ramWrite k v s).timingMode = s.timingMode := rfl
@[simp] theorem ramWrite_running (k : Nat) (v : Byte) (s : State) : (ramWrite k v s).running = s.running := rfl
@[simp] theorem ramWrite_dmaStall (k : Nat) (v : Byte) (s : State) : (ramWrite k v s).dmaStall = s.dmaStall := rfl
@[simp] theorem ramWrite_draws (k : Nat) (v : Byte) (s : State) : (ramWrite k v s).draws = s.draws := rfl
@[simp] theorem ramWrite_memEpoch (k : Nat) (v : Byte) (s : State) : (ramWrite k v s).memEpoch = s.memEpoch := rfl
@[simp] theorem ramWrite_inputs (k : Nat) (v : Byte) (s : State) : (ramWrite k v s).inputs = s.inputs := rfl
@[simp] theorem ramWrite_outputs (k : Nat) (v : Byte) (s : State) : (ramWrite k v s).outputs = s.outputs := rfl

@[simp] theorem oamWrite_a (k : Nat) (v : Byte) (s : State) : (oamWrite k v s).a = s.a := rfl
@[simp] theorem oamWrite_x (k : Nat) (v : Byte) (s : State) : (oamWrite k v s).x = s.x := rfl
@[simp] theorem oamWrite_y (k : Nat) (v : Byte) (s : State) : (oamWrite k v s).y = s.y := rfl
@[simp] theorem oamWrite_pc (k : Nat) (v : Byte) (s : State) : (oamWrite k v s).pc = s.pc := rfl
@[simp] theorem oamWrite_sp (k : Nat) (v : Byte) (s : State) : (oamWrite k v s).sp = s.sp := rfl
@[simp] theorem oamWrite_p (k : Nat) (v : Byte) (s : State) : (oamWrite k v s).p = s.p := rfl
@[simp] theorem oamWrite_instructionCycle (k : Nat) (v : Byte) (s : State) : (oamWrite k v s).instructionCycle = s.instructionCycle := rfl
@[simp] theorem oamWrite_current (k : Nat) (v : Byte) (s : State) : (oamWrite k v s).current = s.current := rfl
@[simp] theorem oamWrite_penaltyLeft (k : Nat) (v : Byte) (s : State) : (oamWrite k v s).penaltyLeft = s.penaltyLeft := rfl
@[simp] theorem oamWrite_totalCycles (k : Nat) (v : Byte) (s : State) : (oamWrite k v s).totalCycles = s.totalCycles := rfl
@[simp] theorem oamWrite_halted (k : Nat) (v : Byte) (s : State) : (oamWrite k v s).halted = s.halted := rfl
@[simp] theorem oamWrite_pending (k : Nat) (v : Byte) (s : State) : (oamWrite k v s).pending = s.pending := rfl
@[simp] theorem oamWrite_ram (k : Nat) (v : Byte) (s : State) : (oamWrite k v s).ram = s.ram := rfl
@[simp] theorem oamWrite_cart (k : Nat) (v : Byte) (s : State) : (oamWrite k v s).cart = s.cart := rfl
@[simp] theorem oamWrite_ppu (k : Nat) (v : Byte) (s : State) : (oamWrite k v s).ppu = { s.ppu with oam := s.ppu.oam.store none k v } := rfl
@[simp] theorem oamWrite_masterCycle (k : Nat) (v : Byte) (s : State) : (oamWrite k v s).masterCycle = s.masterCycle := rfl
@[simp] theorem oamWrite_timingMode (k : Nat) (v : Byte) (s : State) : (oamWrite k v s).timingMode = s.timingMode := rfl
@[simp] theorem oamWrite_running (k : Nat) (v : Byte) (s : State) : (oamWrite k v s).running = s.running := rfl
@[simp] theorem oamWrite_dmaStall (k : Nat) (v : Byte) (s : State) : (oamWrite k v s).dmaStall = s.dmaStall := rfl
@[simp] theorem oamWrite_draws (k : Nat) (v : Byte) (s : State) : (oamWrite k v s).draws = s.draws := rfl
@[simp] theorem oamWrite_memEpoch (k : Nat) (v : Byte) (s : State) : (oamWrite k v s).memEpoch = s.memEpoch := rfl
@[simp] theorem oamWrite_inputs (k : Nat) (v : Byte) (s : State) : (oamWrite k v s).inputs = s.inputs := rfl
@[simp] theorem oamWrite_outputs (k : Nat) (v : Byte) (s : State) : (oamWrite k v s).outputs = s.outputs := rfl

@[simp] theorem setReadBuffer_a (b : Byte) (s : State) : (setReadBuffer b s).a = s.a := rfl
@[simp] theorem setReadBuffer_x (b : Byte) (s : State) : (setReadBuffer b s).x = s.x := rfl
@[simp] theorem setReadBuffer_y (b : Byte) (s : State) : (setReadBuffer b s).y = s.y := rfl
@[simp] theorem setReadBuffer_pc (b : Byte) (s : State) : (setReadBuffer b s).pc = s.pc := rfl
@[simp] theorem setReadBuffer_sp (b : Byte) (s : State) : (setReadBuffer b s).sp = s.sp := rfl
@[simp] theorem setReadBuffer_p (b : Byte) (s : State) : (setReadBuffer b s).p = s.p := rfl
@[simp] theorem setReadBuffer_instructionCycle (b : Byte) (s : State) : (setReadBuffer b s).instructionCycle = s.instructionCycle := rfl
@[simp] theorem setReadBuffer_current (b : Byte) (s : State) : (setReadBuffer b s).current = s.current := rfl
@[simp] theorem setReadBuffer_penaltyLeft (b : Byte) (s : State) : (setReadBuffer b s).penaltyLeft = s.penaltyLeft := rfl
@[simp] theorem setReadBuffer_totalCycles (b : Byte) (s : State) : (setReadBuffer b s).totalCycles = s.totalCycles := rfl
@[simp] theorem setReadBuffer_halted (b : Byte) (s : State) : (setReadBuffer b s).halted = s.halted := rfl
@[simp] theorem setReadBuffer_pending (b : Byte) (s : State) : (setReadBuffer b s).pending = s.pending := rfl
@[simp] theorem setReadBuffer_ram (b : Byte) (s : State) : (setReadBuffer b s).ram = s.ram := rfl
@[simp] theorem setReadBuffer_cart (b : Byte) (s : State) : (setReadBuffer b s).cart = s.cart := rfl
@[simp] theorem setReadBuffer_ppu (b : Byte) (s : State) : (setReadBuffer b s).ppu = { s.ppu with readBuffer := b } := rfl
@[simp] theorem setReadBuffer_masterCycle (b : Byte) (s : State) : (setReadBuffer b s).masterCycle = s.masterCycle := rfl
@[simp] theorem setReadBuffer_timingMode (b : Byte) (s : State) : (setReadBuffer b s).timingMode = s.timingMode := rfl
@[simp] theorem setReadBuffer_running (b : Byte) (s : State) : (setReadBuffer b s).running = s.running := rfl
@[simp] theorem setReadBuffer_dmaStall (b : Byte) (s : State) : (setReadBuffer b s).dmaStall = s.dmaStall := rfl
@[simp] theorem setReadBuffer_draws (b : Byte) (s : State) : (setReadBuffer b s).draws = s.draws := rfl
@[simp] theorem setReadBuffer_memEpoch (b : Byte) (s : State) : (setReadBuffer b s).memEpoch = s.memEpoch := rfl
@[simp] theorem setReadBuffer_inputs (b : Byte) (s : State) : (setReadBuffer b s).inputs = s.inputs := rfl
@[simp] theorem setReadBuffer_outputs (b : Byte) (s : State) : (setReadBuffer b s).outputs = s.outputs := rfl

@[simp] theorem advanceV_a (s : State) : (advanceV s).a = s.a := rfl
@[simp] theorem advanceV_x (s : State) : (advanceV s).x = s.x := rfl
@[simp] theorem advanceV_y (s : State) : (advanceV s).y = s.y := rfl
@[simp] theorem advanceV_pc (s : State) : (advanceV s).pc = s.pc := rfl
@[simp] theorem advanceV_sp (s : State) : (advanceV s).sp = s.sp := rfl
@[simp] theorem advanceV_p (s : State) : (advanceV s).p = s.p := rfl
@[simp] theorem advanceV_instructionCycle (s : State) : (advanceV s).instructionCycle = s.instructionCycle := rfl
@[simp] theorem advanceV_current (s : State) : (advanceV s).current = s.current := rfl
@[simp] theorem advanceV_penaltyLeft (s : State) : (advanceV s).penaltyLeft = s.penaltyLeft := rfl
@[simp] theorem advanceV_totalCycles (s : State) : (advanceV s).totalCycles = s.totalCycles := rfl
@[simp] theorem advanceV_halted (s : State) : (advanceV s).halted = s.halted := rfl
@[simp] theorem advanceV_pending (s : State) : (advanceV s).pending = s.pending := rfl
@[simp] theorem advanceV_ram (s : State) : (advanceV s).ram = s.ram := rfl
@[simp] theorem advanceV_cart (s : State) : (advanceV s).cart = s.cart := rfl
@[simp] theorem advanceV_ppu (s : State) : (advanceV s).ppu = { s.ppu with v := s.ppu.v + vramStep s.ppu.ctrl } := rfl
@[simp] theorem advanceV_masterCycle (s : State) : (advanceV s).masterCycle = s.masterCycle := rfl
@[simp] theorem advanceV_timingMode (s : State) : (advanceV s).timingMode = s.timingMode := rfl
@[simp] theorem advanceV_running (s : State) : (advanceV s).running = s.running := rfl
@[simp] theorem advanceV_dmaStall (s : State) : (advanceV s).dmaStall = s.dmaStall := rfl
@[simp] theorem advanceV_draws (s : State) : (advanceV s).draws = s.draws := rfl
@[simp] theorem advanceV_memEpoch (s : State) : (advanceV s).memEpoch = s.memEpoch := rfl
@[simp] theorem advanceV_inputs (s : State) : (advanceV s).inputs = s.inputs := rfl
@[simp] theorem advanceV_outputs (s : State) : (advanceV s).outputs = s.outputs := rfl

@[simp] theorem loadA_a (v : Byte) (s : State) : (loadA v s).a = v := rfl
@[simp] theorem loadA_x (v : Byte) (s : State) : (loadA v s).x = s.x := rfl
@[simp] theorem loadA_y (v : Byte) (s : State) : (loadA v s).y = s.y := rfl
@[simp] theorem loadA_pc (v : Byte) (s : State) : (loadA v s).pc = s.pc := rfl
@[simp] theorem loadA_sp (v : Byte) (s : State) : (loadA v s).sp = s.sp := rfl
@[simp] theorem loadA_p (v : Byte) (s : State) : (loadA v s).p = setZN v s.p := rfl
@[simp] theorem loadA_instructionCycle (v : Byte) (s : State) : (loadA v s).instructionCycle = s.instructionCycle := rfl
@[simp] theorem loadA_current (v : Byte) (s : State) : (loadA v s).current = s.current := rfl
@[simp] theorem loadA_penaltyLeft (v : Byte) (s : State) : (loadA v s).penaltyLeft = s.penaltyLeft := rfl
@[simp] theorem loadA_totalCycles (v : Byte) (s : State) : (loadA v s).totalCycles = s.totalCycles := rfl
@[simp] theorem loadA_halted (v : Byte) (s : State) : (loadA v s).halted = s.halted := rfl
@[simp] theorem loadA_pending (v : Byte) (s : State) : (loadA v s).pending = s.pending := rfl
@[simp] theorem loadA_ram (v : Byte) (s : State) : (loadA v s).ram = s.ram := rfl
@[simp] theorem loadA_cart (v : Byte) (s : State) : (loadA v s).cart = s.cart := rfl
@[simp] theorem loadA_ppu (v : Byte) (s : State) : (loadA v s).ppu = s.ppu := rfl
@[simp] theorem loadA_masterCycle (v : Byte) (s : State) : (loadA v s).masterCycle = s.masterCycle := rfl
@[simp] theorem loadA_timingMode (v : Byte) (s : State) : (loadA v s).timingMode = s.timingMode := rfl
@[simp] theorem loadA_running (v : Byte) (s : State) : (loadA v s).running = s.running := rfl
@[simp] theorem loadA_dmaStall (v : Byte) (s : State) : (loadA v s).dmaStall = s.dmaStall := rfl
@[simp] theorem loadA_draws (v : Byte) (s : State) : (loadA v s).draws = s.draws := rfl
@[simp] theorem loadA_memEpoch (v : Byte) (s : State) : (loadA v s).memEpoch = s.memEpoch := rfl
@[simp] theorem loadA_inputs (v : Byte) (s : State) : (loadA v s).inputs = s.inputs := rfl
@[simp] theorem loadA_outputs (v : Byte) (s : State) : (loadA v s).outputs = s.outputs := rfl

@[simp] theorem loadX_a (v : Byte) (s : State) : (loadX v s).a = s.a := rfl
@[simp] theorem loadX_x (v : Byte) (s : State) : (loadX v s).x = v := rfl
@[simp] theorem loadX_y (v : Byte) (s : State) : (loadX v s).y = s.y := rfl
@[simp] theorem loadX_pc (v : Byte) (s : State) : (loadX v s).pc = s.pc := rfl
@[simp] theorem loadX_sp (v : Byte) (s : State) : (loadX v s).sp = s.sp := rfl
@[simp] theorem loadX_p (v : Byte) (s : State) : (loadX v s).p = setZN v s.p := rfl
@[simp] theorem loadX_instructionCycle (v : Byte) (s : State) : (loadX v s).instructionCycle = s.instructionCycle := rfl
@[simp] theorem loadX_current (v : Byte) (s : State) : (loadX v s).current = s.current := rfl
@[simp] theorem loadX_penaltyLeft (v : Byte) (s : State) : (loadX v s).penaltyLeft = s.penaltyLeft := rfl
@[simp] theorem loadX_totalCycles (v : Byte) (s : State) : (loadX v s).totalCycles = s.totalCycles := rfl
@[simp] theorem loadX_halted (v : Byte) (s : State) : (loadX v s).halted = s.halted := rfl
@[simp] theorem loadX_pending (v : Byte) (s : State) : (loadX v s).pending = s.pending := rfl
@[simp] theorem loadX_ram (v : Byte) (s : State) : (loadX v s).ram = s.ram := rfl
@[simp] theorem loadX_cart (v : Byte) (s : State) : (loadX v s).cart = s.cart := rfl
@[simp] theorem loadX_ppu (v : Byte) (s : State) : (loadX v s).ppu = s.ppu := rfl
@[simp] theorem loadX_masterCycle (v : Byte) (s : State) : (loadX v s).masterCycle = s.masterCycle := rfl
@[simp] theorem loadX_timingMode (v : Byte) (s : State) : (loadX v s).timingMode = s.timingMode := rfl
@[simp] theorem loadX_running (v : Byte) (s : State) : (loadX v s).running = s.running := rfl
@[simp] theorem loadX_dmaStall (v : Byte) (s : State) : (loadX v s).dmaStall = s.dmaStall := rfl
@[simp] theorem loadX_draws (v : Byte) (s : State) : (loadX v s).draws = s.draws := rfl
@[simp] theorem loadX_memEpoch (v : Byte) (s : State) : (loadX v s).memEpoch = s.memEpoch := rfl
@[simp] theorem loadX_inputs (v : Byte) (s : State) : (loadX v s).inputs = s.inputs := rfl
@[simp] theorem loadX_outputs (v : Byte) (s : State) : (loadX v s).outputs = s.outputs := rfl

@[simp] theorem loadY_a (v : Byte) (s : State) : (loadY v s).a = s.a := rfl
@[simp] theorem loadY_x (v : Byte) (s : State) : (loadY v s).x = s.x := rfl
@[simp] theorem loadY_y (v : Byte) (s : State) : (loadY v s).y = v := rfl
@[simp] theorem loadY_pc (v : Byte) (s : State) : (loadY v s).pc = s.pc := rfl
@[simp] theorem loadY_sp (v : Byte) (s : State) : (loadY v s).sp = s.sp := rfl
@[simp] theorem loadY_p (v : Byte) (s : State) : (loadY v s).p = setZN v s.p := rfl
@[simp] theorem loadY_instructionCycle (v : Byte) (s : State) : (loadY v s).instructionCycle = s.instructionCycle := rfl
@[simp] theorem loadY_current (v : Byte) (s : State) : (loadY v s).current = s.current := rfl
@[simp] theorem loadY_penaltyLeft (v : Byte) (s : State) : (loadY v s).penaltyLeft = s.penaltyLeft := rfl
@[simp] theorem loadY_totalCycles (v : Byte) (s : State) : (loadY v s).totalCycles = s.totalCycles := rfl
@[simp] theorem loadY_halted (v : Byte) (s : State) : (loadY v s).halted = s.halted := rfl
@[simp] theorem loadY_pending (v : Byte) (s : State) : (loadY v s).pending = s.pending := rfl
@[simp] theorem loadY_ram (v : Byte) (s : State) : (loadY v s).ram = s.ram := rfl
@[simp] theorem loadY_cart (v : Byte) (s : State) : (loadY v s).cart = s.cart := rfl
@[simp] theorem loadY_ppu (v : Byte) (s : State) : (loadY v s).ppu = s.ppu := rfl
@[simp] theorem loadY_masterCycle (v : Byte) (s : State) : (loadY v s).masterCycle = s.masterCycle := rfl
@[simp] theorem loadY_timingMode (v : Byte) (s : State) : (loadY v s).timingMode = s.timingMode := rfl
@[simp] theorem loadY_running (v : Byte) (s : State) : (loadY v s).running = s.running := rfl
@[simp] theorem loadY_dmaStall (v : Byte) (s : State) : (loadY v s).dmaStall = s.dmaStall := rfl
@[simp] theorem loadY_draws (v : Byte) (s : State) : (loadY v s).draws = s.draws := rfl
@[simp] theorem loadY_memEpoch (v : Byte) (s : State) : (loadY v s).memEpoch = s.memEpoch := rfl
@[simp] theorem loadY_inputs (v : Byte) (s : State) : (loadY v s).inputs = s.inputs := rfl
@[simp] theorem loadY_outputs (v : Byte) (s : State) : (loadY v s).outputs = s.outputs := rfl

@[simp] theorem putFlag_a (f : Flag) (b : Bool) (s : State) : (putFlag f b s).a = s.a := rfl
@[simp] theorem putFlag_x (f : Flag) (b : Bool) (s : State) : (putFlag f b s).x = s.x := rfl
@[simp] theorem putFlag_y (f : Flag) (b : Bool) (s : State) : (putFlag f b s).y = s.y := rfl
@[simp] theorem putFlag_pc (f : Flag) (b : Bool) (s : State) : (putFlag f b s).pc = s.pc := rfl
@[simp] theorem putFlag_sp (f : Flag) (b : Bool) (s : State) : (putFlag f b s).sp = s.sp := rfl
@[simp] theorem putFlag_p (f : Flag) (b : Bool) (s : State) : (putFlag f b s).p = setFlag f b s.p := rfl
@[simp] theorem putFlag_instructionCycle (f : Flag) (b : Bool) (s : State) : (putFlag f b s).instructionCycle = s.instructionCycle := rfl
@[simp] theorem putFlag_current (f : Flag) (b : Bool) (s : State) : (putFlag f b s).current = s.current := rfl
@[simp] theorem putFlag_penaltyLeft (f : Flag) (b : Bool) (s : State) : (putFlag f b s).penaltyLeft = s.penaltyLeft := rfl
@[simp] theorem putFlag_totalCycles (f : Flag) (b : Bool) (s : State) : (putFlag f b s).totalCycles = s.totalCycles := rfl
@[simp] theorem putFlag_halted (f : Flag) (b : Bool) (s : State) : (putFlag f b s).halted = s.halted := rfl
@[simp] theorem putFlag_pending (f : Flag) (b : Bool) (s : State) : (putFlag f b s).pending = s.pending := rfl
@[simp] theorem putFlag_ram (f : Flag) (b : Bool) (s : State) : (putFlag f b s).ram = s.ram := rfl
@[simp] theorem putFlag_cart (f : Flag) (b : Bool) (s : State) : (putFlag f b s).cart = s.cart := rfl
@[simp] theorem putFlag_ppu (f : Flag) (b : Bool) (s : State) : (putFlag f b s).ppu = s.ppu := rfl
@[simp] theorem putFlag_masterCycle (f : Flag) (b : Bool) (s : State) : (putFlag f b s).masterCycle = s.masterCycle := rfl
@[simp] theorem putFlag_timingMode (f : Flag) (b : Bool) (s : State) : (putFlag f b s).timingMode = s.timingMode := rfl
@[simp] theorem putFlag_running (f : Flag) (b : Bool) (s : State) : (putFlag f b s).running = s.running := rfl
@[simp] theorem putFlag_dmaStall (f : Flag) (b : Bool) (s : State) : (putFlag f b s).dmaStall = s.dmaStall := rfl
@[simp] theorem putFlag_draws (f : Flag) (b : Bool) (s : State) : (putFlag f b s).draws = s.draws := rfl
@[simp] theorem putFlag_memEpoch (f : Flag) (b : Bool) (s : State) : (putFlag f b s).memEpoch = s.memEpoch := rfl
@[simp] theorem putFlag_inputs (f : Flag) (b : Bool) (s : State) : (putFlag f b s).inputs = s.inputs := rfl
@[simp] theorem putFlag_outputs (f : Flag) (b : Bool) (s : State) : (putFlag f b s).outputs = s.outputs := rfl

@[simp] theorem storeSum_a (r : Sum) (s : State) : (storeSum r s).a = r.result := rfl
@[simp] theorem storeSum_x (r : Sum) (s : State) : (storeSum r s).x = s.x := rfl
@[simp] theorem storeSum_y (r : Sum) (s : State) : (storeSum r s).y = s.y := rfl
@[simp] theorem storeSum_pc (r : Sum) (s : State) : (storeSum r s).pc = s.pc := rfl
@[simp] theorem storeSum_sp (r : Sum) (s : State) : (storeSum r s).sp = s.sp := rfl
@[simp] theorem storeSum_p (r : Sum) (s : State) : (storeSum r s).p = setSumFlags r s.p := rfl
@[simp] theorem storeSum_instructionCycle (r : Sum) (s : State) : (storeSum r s).instructionCycle = s.instructionCycle := rfl
@[simp] theorem storeSum_current (r : Sum) (s : State) : (storeSum r s).current = s.current := rfl
@[simp] theorem storeSum_penaltyLeft (r : Sum) (s : State) : (storeSum r s).penaltyLeft = s.penaltyLeft := rfl
@[simp] theorem storeSum_totalCycles (r : Sum) (s : State) : (storeSum r s).totalCycles = s.totalCycles := rfl
@[simp] theorem storeSum_halted (r : Sum) (s : State) : (storeSum r s).halted = s.halted := rfl
@[simp] theorem storeSum_pending (r : Sum) (s : State) : (storeSum r s).pending = s.pending := rfl
@[simp] theorem storeSum_ram (r : Sum) (s : State) : (storeSum r s).ram = s.ram := rfl
@[simp] theorem storeSum_cart (r : Sum) (s : State) : (storeSum r s).cart = s.cart := rfl
@[simp] theorem storeSum_ppu (r : Sum) (s : State) : (storeSum r s).ppu = s.ppu := rfl
@[simp] theorem storeSum_masterCycle (r : Sum) (s : State) : (storeSum r s).masterCycle = s.masterCycle := rfl
@[simp] theorem storeSum_timingMode (r : Sum) (s : State) : (storeSum r s).timingMode = s.timingMode := rfl
@[simp] theorem storeSum_running (r : Sum) (s : State) : (storeSum r s).running = s.running := rfl
@[simp] theorem storeSum_dmaStall (r : Sum) (s : State) : (storeSum r s).dmaStall = s.dmaStall := rfl
@[simp] theorem storeSum_draws (r : Sum) (s : State) : (storeSum r s).draws = s.draws := rfl
@[simp] theorem storeSum_memEpoch (r : Sum) (s : State) : (storeSum r s).memEpoch = s.memEpoch := rfl
@[simp] theorem storeSum_inputs (r : Sum) (s : State) : (storeSum r s).inputs = s.inputs := rfl
@[simp] theorem storeSum_outputs (r : Sum) (s : State) : (storeSum r s).outputs = s.outputs := rfl

@[simp] theorem acceptNmi_a (s : State) : (acceptNmi s).a = s.a := rfl
@[simp] theorem acceptNmi_x (s : State) : (acceptNmi s).x = s.x := rfl
@[simp] theorem acceptNmi_y (s : State) : (acceptNmi s).y = s.y := rfl
@[simp] theorem acceptNmi_pc (s : State) : (acceptNmi s).pc = s.pc := rfl
@[simp] theorem acceptNmi_sp (s : State) : (acceptNmi s).sp = s.sp := rfl
@[simp] theorem acceptNmi_p (s : State) : (acceptNmi s).p = s.p := rfl
@[simp] theorem acceptNmi_instructionCycle (s : State) : (acceptNmi s).instructionCycle = 1 := rfl
@[simp] theorem acceptNmi_current (s : State) : (acceptNmi s).current = some .nmi := rfl
@[simp] theorem acceptNmi_penaltyLeft (s : State) : (acceptNmi s).penaltyLeft = s.penaltyLeft := rfl
@[simp] theorem acceptNmi_totalCycles (s : State) : (acceptNmi s).totalCycles = s.totalCycles := rfl
@[simp] theorem acceptNmi_halted (s : State) : (acceptNmi s).halted = false := rfl
@[simp] theorem acceptNmi_pending (s : State) : (acceptNmi s).pending = { s.pending with nmi := false } := rfl
@[simp] theorem acceptNmi_ram (s : State) : (acceptNmi s).ram = s.ram := rfl
@[simp] theorem acceptNmi_cart (s : State) : (acceptNmi s).cart = s.cart := rfl
@[simp] theorem acceptNmi_ppu (s : State) : (acceptNmi s).ppu = s.ppu := rfl
@[simp] theorem acceptNmi_masterCycle (s : State) : (acceptNmi s).masterCycle = s.masterCycle := rfl
@[simp] theorem acceptNmi_timingMode (s : State) : (acceptNmi s).timingMode = s.timingMode := rfl
@[simp] theorem acceptNmi_running (s : State) : (acceptNmi s).running = s.running := rfl
@[simp] theorem acceptNmi_dmaStall (s : State) : (acceptNmi s).dmaStall = s.dmaStall := rfl
@[simp] theorem acceptNmi_draws (s : State) : (acceptNmi s).draws = s.draws := rfl
@[simp] theorem acceptNmi_memEpoch (s : State) : (acceptNmi s).memEpoch = s.memEpoch := rfl
@[simp] theorem acceptNmi_inputs (s : State) : (acceptNmi s).inputs = s.inputs := rfl
@[simp] theorem acceptNmi_outputs (s : State) : (acceptNmi s).outputs = s.outputs := rfl

@[simp] theorem acceptIrq_a (s : State) : (acceptIrq s).a = s.a := rfl
@[simp] theorem acceptIrq_x (s : State) : (acceptIrq s).x = s.x := rfl
@[simp] theorem acceptIrq_y (s : State) : (acceptIrq s).y = s.y := rfl
@[simp] theorem acceptIrq_pc (s : State) : (acceptIrq s).pc = s.pc := rfl
@[simp] theorem acceptIrq_sp (s : State) : (acceptIrq s).sp = s.sp := rfl
@[simp] theorem acceptIrq_p (s : State) : (acceptIrq s).p = s.p := rfl
@[simp] theorem acceptIrq_instructionCycle (s : State) : (acceptIrq s).instructionCycle = 1 := rfl
@[simp] theorem acceptIrq_current (s : State) : (acceptIrq s).current = some .irq := rfl
@[simp] theorem acceptIrq_penaltyLeft (s : State) : (acceptIrq s).penaltyLeft = s.penaltyLeft := rfl
@[simp] theorem acceptIrq_totalCycles (s : State) : (acceptIrq s).totalCycles = s.totalCycles := rfl
@[simp] theorem acceptIrq_halted (s : State) : (acceptIrq s).halted = s.halted := rfl
@[simp] theorem acceptIrq_pending (s : State) : (acceptIrq s).pending = { s.pending with irq := false } := rfl
@[simp] theorem acceptIrq_ram (s : State) : (acceptIrq s).ram = s.ram := rfl
@[simp] theorem acceptIrq_cart (s : State) : (acceptIrq s).cart = s.cart := rfl
@[simp] theorem acceptIrq_ppu (s : State) : (acceptIrq s).ppu = s.ppu := rfl
@[simp] theorem acceptIrq_masterCycle (s : State) : (acceptIrq s).masterCycle = s.masterCycle := rfl
@[simp] theorem acceptIrq_timingMode (s : State) : (acceptIrq s).timingMode = s.timingMode := rfl
@[simp] theorem acceptIrq_running (s : State) : (acceptIrq s).running = s.running := rfl
@[simp] theorem acceptIrq_dmaStall (s : State) : (acceptIrq s).dmaStall = s.dmaStall := rfl
@[simp] theorem acceptIrq_draws (s : State) : (acceptIrq s).draws = s.draws := rfl
@[simp] theorem acceptIrq_memEpoch (s : State) : (acceptIrq s).memEpoch = s.memEpoch := rfl
@[simp] theorem acceptIrq_inputs (s : State) : (acceptIrq s).inputs = s.inputs := rfl
@[simp] theorem acceptIrq_outputs (s : State) : (acceptIrq s).outputs = s.outputs := rfl

end Sys2Proof.Machine
end

