-- ==== Sys2Proof/Laws/Ops.lean ====
section
/-! SUPPORT. What each shared operation can do, said once: the fields a bus access, a PPU cycle, a stack access and an
addressing mode may change, and what the stack and zero-page accesses do exactly. -/

namespace Sys2Proof.Machine

/-! ### Reads change only the PPU and the draw counter -/

/-- `t` is `s` but for the PPU and the draw counter. -/
def OnlyPpuDraws (s t : State) : Prop := ∃ q d, t = { s with ppu := q, draws := d }

theorem OnlyPpuDraws.refl (s : State) : OnlyPpuDraws s s := ⟨s.ppu, s.draws, rfl⟩

theorem OnlyPpuDraws.trans {s t u : State} (h : OnlyPpuDraws s t) (k : OnlyPpuDraws t u) : OnlyPpuDraws s u := by
  obtain ⟨q, d, rfl⟩ := h
  obtain ⟨q', d', rfl⟩ := k
  exact ⟨q', d', rfl⟩

theorem readMapped_only (w : Option (Nat × MemoryKind)) (s : State) : OnlyPpuDraws s (readMapped w s).2 := by
  rcases w with _ | ⟨off, kind⟩
  · exact ⟨s.ppu, s.draws + 1, rfl⟩
  · exact .refl s

theorem ppuRead_only (a : Nat) (s : State) : OnlyPpuDraws s (ppuRead a s).2 := by
  unfold ppuRead
  split
  · exact readMapped_only _ s
  · split <;> exact .refl s

theorem advanceV_only (s : State) : OnlyPpuDraws s (advanceV s) := ⟨_, s.draws, rfl⟩

theorem setReadBuffer_only (b : Byte) (s : State) : OnlyPpuDraws s (setReadBuffer b s) := ⟨_, s.draws, rfl⟩

theorem readPpuData_only (s : State) : OnlyPpuDraws s (readPpuData s).2 := by
  simp only [readPpuData]
  split
  · exact ((ppuRead_only _ s).trans (setReadBuffer_only _ _)).trans (advanceV_only _)
  · exact (((ppuRead_only _ s).trans (ppuRead_only _ _)).trans (setReadBuffer_only _ _)).trans (advanceV_only _)

theorem ppuRegRead_only (n : Nat) (s : State) : OnlyPpuDraws s (ppuRegRead n s).2 := by
  unfold ppuRegRead
  split
  · exact ⟨_, s.draws, rfl⟩
  · exact .refl s
  · exact readPpuData_only s
  · exact ⟨s.ppu, s.draws + 1, rfl⟩

/-- Everything a bus read can do: it changes no field but the PPU and the draw counter (R44, R55). -/
theorem busRead_only (a : Word) (s : State) : OnlyPpuDraws s (busRead a s).2 := by
  unfold busRead
  split
  · exact .refl s
  · split
    · exact ppuRegRead_only _ s
    · split
      · exact ⟨s.ppu, s.draws + 1, rfl⟩
      · exact readMapped_only _ s

theorem busReadWord_only (a b : Word) (s : State) : OnlyPpuDraws s (busReadWord a b s).2 :=
  (busRead_only a s).trans (busRead_only b _)

@[simp] theorem readMapped_some (off : Nat) (kind : MemoryKind) (s : State) :
    readMapped (some (off, kind)) s = (cartByte s.cart off kind, s) := rfl

@[simp] theorem readMapped_none (s : State) :
    readMapped none s = (Config.unmappedRead s.draws, { s with draws := s.draws + 1 }) := rfl

/-- From $4020 on a read is the mapper's (R51). -/
theorem busRead_cart {a : Word} (h : 0x4020 ≤ a.toNat) (s : State) :
    busRead a s = readMapped (mapCpuAddress s.cart a) s := by
  unfold busRead
  rw [if_neg (by omega), if_neg (by omega), if_neg (by omega)]
  rfl

/-- Plain memory is read without any effect (R55). -/
theorem busRead_plain {a : Word} {s : State} (h : plainMemory s.cart a = true) : (busRead a s).2 = s := by
  simp only [plainMemory, Bool.or_eq_true, Bool.and_eq_true, decide_eq_true_eq, beq_iff_eq] at h
  unfold busRead
  rcases h with h | ⟨h, hm⟩
  · rw [if_pos h]
  · rw [if_neg (by omega), if_neg (by omega), if_neg (by omega)]
    simp [mapperCpuRead, mapCpuAddress, hm, h, readMapped]

/-! ### Writes -/

/-- `t` is `s` but for the fields a bus write may change. -/
def OnlyWrite (s t : State) : Prop :=
  ∃ r q pd c d st o, t = { s with ram := r, ppu := q, pending := pd, cart := c, draws := d, dmaStall := st, outputs := o }

theorem OnlyWrite.refl (s : State) : OnlyWrite s s := ⟨s.ram, s.ppu, s.pending, s.cart, s.draws, s.dmaStall, s.outputs, rfl⟩

theorem OnlyWrite.trans {s t u : State} (h : OnlyWrite s t) (k : OnlyWrite t u) : OnlyWrite s u := by
  obtain ⟨_, _, _, _, _, _, _, rfl⟩ := h
  obtain ⟨r, q, pd, c, d, st, o, rfl⟩ := k
  exact ⟨r, q, pd, c, d, st, o, rfl⟩

theorem OnlyPpuDraws.write {s t : State} (h : OnlyPpuDraws s t) : OnlyWrite s t := by
  obtain ⟨q, d, rfl⟩ := h
  exact ⟨s.ram, q, s.pending, s.cart, d, s.dmaStall, s.outputs, rfl⟩

theorem mapperPpuWrite_only (a : Nat) (v : Byte) (s : State) : OnlyWrite s (mapperPpuWrite a v s) := by
  unfold mapperPpuWrite
  split
  · exact ⟨s.ram, s.ppu, s.pending, _, s.draws, s.dmaStall, s.outputs, rfl⟩
  · exact .refl s
  · exact .refl s

theorem ppuWrite_only (a : Nat) (v : Byte) (s : State) : OnlyWrite s (ppuWrite a v s) := by
  unfold ppuWrite
  split
  · exact mapperPpuWrite_only a v s
  · split <;> exact ⟨s.ram, _, s.pending, s.cart, s.draws, s.dmaStall, s.outputs, rfl⟩

theorem ppuRegWrite_only (n : Nat) (v : Byte) (s : State) : OnlyWrite s (ppuRegWrite n v s) := by
  unfold ppuRegWrite
  split
  · simp only [writePpuCtrl]
    split <;> exact ⟨s.ram, _, _, s.cart, s.draws, s.dmaStall, s.outputs, rfl⟩
  · exact ⟨s.ram, _, s.pending, s.cart, s.draws, s.dmaStall, s.outputs, rfl⟩
  · exact ⟨s.ram, _, s.pending, s.cart, s.draws, s.dmaStall, s.outputs, rfl⟩
  · exact ⟨s.ram, _, s.pending, s.cart, s.draws, s.dmaStall, s.outputs, rfl⟩
  · simp only [writePpuScroll]
    split <;> exact ⟨s.ram, _, s.pending, s.cart, s.draws, s.dmaStall, s.outputs, rfl⟩
  · simp only [writePpuAddr]
    split <;> exact ⟨s.ram, _, s.pending, s.cart, s.draws, s.dmaStall, s.outputs, rfl⟩
  · exact (ppuWrite_only _ _ s).trans (advanceV_only _).write
  · exact .refl s

theorem mapperWriteRegister_only (a : Word) (v : Byte) (s : State) : OnlyWrite s (mapperWriteRegister a v s) := by
  unfold mapperWriteRegister
  split
  · exact .refl s
  · simp only []
    split <;> exact ⟨s.ram, s.ppu, _, _, s.draws, s.dmaStall, s.outputs, rfl⟩

theorem mapperCpuWrite_only (a : Word) (v : Byte) (s : State) : OnlyWrite s (mapperCpuWrite a v s) := by
  refine (mapperWriteRegister_only a v s).trans ?_
  simp only [mapperCpuWrite]
  split
  · exact ⟨_, _, _, _, _, _, _, rfl⟩
  · exact .refl _

theorem oamDmaCopy_only (pg : Byte) (n i : Nat) (s : State) : OnlyPpuDraws s (oamDmaCopy pg n i s) := by
  induction n generalizing i s with
  | zero => exact .refl s
  | succ n ih =>
    refine OnlyPpuDraws.trans ?_ (ih (i + 1) _)
    exact (busRead_only _ s).trans ⟨_, _, rfl⟩

theorem oamDma_only (v : Byte) (s : State) : OnlyWrite s (oamDma v s) := by
  obtain ⟨q, d, h⟩ := oamDmaCopy_only v 256 0 s
  refine ⟨s.ram, q, s.pending, s.cart, d, 513 + s.totalCycles % 2, s.outputs, ?_⟩
  simp only [oamDma, h]

/-- Everything a bus write can do (R45): no CPU register, sequencing or timing field changes but the DMA stall. -/
theorem busWrite_only (a : Word) (v : Byte) (s : State) : OnlyWrite s (busWrite a v s) := by
  unfold busWrite
  split
  · exact ⟨_, s.ppu, s.pending, s.cart, s.draws, s.dmaStall, s.outputs, rfl⟩
  · split
    · exact ppuRegWrite_only _ _ s
    · split
      · exact oamDma_only v s
      · split
        · exact ⟨s.ram, s.ppu, s.pending, s.cart, s.draws, s.dmaStall, _, rfl⟩
        · exact mapperCpuWrite_only a v s

/-! ### The stack and the zero page are RAM -/

theorem stackAddr_toNat (sp : Byte) : (stackAddr sp).toNat = 0x100 + sp.toNat := by
  have := sp.isLt
  have e : (0x0100 : Word).toNat = 0x100 := rfl
  simp only [stackAddr, zext16, BitVec.toNat_add, BitVec.toNat_setWidth, e]
  omega

/-- A push writes one RAM byte and moves SP (R14). -/
theorem push_eq (v : Byte) (s : State) :
    push v s = { s with ram := s.ram.store none (0x100 + s.sp.toNat) v, sp := s.sp - 1 } := by
  have h := stackAddr_toNat s.sp
  have := s.sp.isLt
  have hk : (0x100 + s.sp.toNat) % 0x800 = 0x100 + s.sp.toNat := by omega
  simp only [push, busWrite]
  rw [if_pos (by omega), h, hk]
  rfl

/-- A pull moves SP and reads one RAM byte (R14). -/
theorem pull_eq (s : State) :
    pull s = (ramByte s (0x100 + (s.sp + 1).toNat), { s with sp := s.sp + 1 }) := by
  have h := stackAddr_toNat (s.sp + 1)
  have := (s.sp + 1).isLt
  have hk : (0x100 + (s.sp + 1).toNat) % 0x800 = 0x100 + (s.sp + 1).toNat := by omega
  simp only [pull, busRead]
  rw [if_pos (by omega), h, hk]
  rfl

/-- A zero-page pointer is two RAM bytes; nothing changes (R84, R85). -/
theorem zeroPagePointer_eq (b : Byte) (s : State) :
    zeroPagePointer b s = (hiLo (ramByte s (b + 1).toNat) (ramByte s b.toNat), s) := by
  have h1 := b.isLt
  have h2 := (b + 1).isLt
  have e1 : (zext16 b).toNat = b.toNat := by simp [zext16]; omega
  have e2 : (zext16 (b + 1)).toNat = (b + 1).toNat := by
    rw [zext16, BitVec.toNat_setWidth]; omega
  simp only [zeroPagePointer, busReadWord, busRead, e1, e2]
  rw [if_pos (by omega), if_pos (by omega), Nat.mod_eq_of_lt (by omega), Nat.mod_eq_of_lt (by omega)]

/-- An addressing mode changes no state: pointers are read from RAM. -/
theorem resolve_state (m : Mem) (s : State) : (resolve m s).2 = s := by
  cases m <;> simp [resolve, zeroPagePointer_eq]

/-- Everything an operand read can do. -/
theorem readMem_only (m : Mem) (s : State) :
    ∃ q d n, (readMem m s).2 = { s with ppu := q, draws := d, penaltyLeft := n } := by
  simp only [readMem, chargeCrossing, resolve_state]
  obtain ⟨q, d, h⟩ := busRead_only (resolve m s).1.ea s
  rw [h]
  split
  · exact ⟨q, d, 1, rfl⟩
  · exact ⟨q, d, s.penaltyLeft, rfl⟩

/-! ### Secondary OAM -/

theorem Memory.find_constant (b : Byte) (l : List Nat) (k : Nat) :
    Memory.find (l.map (fun i => (i, b))) k = if k ∈ l then some b else none := by
  induction l with
  | nil => rfl
  | cons a l ih =>
    simp only [List.map_cons, Memory.find, ih, List.mem_cons]
    by_cases h : a = k
    · simp [h]
    · simp [h, Ne.symm h]

/-- After the clear every byte of secondary OAM is 0xFF (R264). -/
theorem secondaryByte_cleared {s : State} (h : s.ppu.secondaryOam = clearedSecondary) {k : Nat} (hk : k < 32) :
    secondaryByte s k = 0xFF := by
  simp [secondaryByte, h, clearedSecondary, Memory.find_constant, hk]

/-- Where no byte is listed, secondary OAM holds the free value of the present position (R264, log entry 5). -/
theorem secondaryByte_open {s : State} (h : s.ppu.secondaryOam = []) (k : Nat) :
    secondaryByte s k = Config.secondaryOam s.memEpoch s.ppu.frame s.ppu.scanline s.ppu.cycle k := by
  simp [secondaryByte, h, Memory.find]

/-! ### The host's requests -/

/-- A request sets the bit of its own kind and leaves the others (R22, R221). -/
theorem Pending.request_eq (q : Pending) (k : InterruptKind) :
    q.request k = ⟨q.nmi || decide (k = .nmi), q.irq || decide (k = .irq), q.reset || decide (k = .reset)⟩ := by
  cases k <;> simp [Pending.request]

/-- The latch after the requests due by master cycle `n`, each bit by the requests of its own kind. -/
theorem Pending.foldl_request (l : List (Nat × InterruptKind)) (n : Nat) (q : Pending) :
    l.foldl (fun q e => if e.1 ≤ n then q.request e.2 else q) q =
      ⟨q.nmi || l.any (fun e => decide (e.1 ≤ n ∧ e.2 = .nmi)),
        q.irq || l.any (fun e => decide (e.1 ≤ n ∧ e.2 = .irq)),
        q.reset || l.any (fun e => decide (e.1 ≤ n ∧ e.2 = .reset))⟩ := by
  induction l generalizing q with
  | nil => simp
  | cons e l ih =>
    simp only [List.foldl_cons, ih, List.any_cons]
    by_cases h : e.1 ≤ n <;> simp [h, Pending.request_eq, Bool.or_assoc]

/-- Everything the delivery of the host's requests can do: only the latch and the queue (R221; log entry 9). -/
theorem deliverInputs_eq (s : State) : deliverInputs s = { s with
    pending := ⟨s.pending.nmi || s.inputs.any (fun e => decide (e.1 ≤ s.masterCycle ∧ e.2 = .nmi)),
      s.pending.irq || s.inputs.any (fun e => decide (e.1 ≤ s.masterCycle ∧ e.2 = .irq)),
      s.pending.reset || s.inputs.any (fun e => decide (e.1 ≤ s.masterCycle ∧ e.2 = .reset))⟩
    inputs := s.inputs.filter (fun e => decide (s.masterCycle < e.1)) } := by
  simp only [deliverInputs, Pending.foldl_request]

/-- With nothing to request, nothing happens. -/
@[simp] theorem deliverInputs_none {s : State} (h : s.inputs = []) : deliverInputs s = s := by
  cases s
  simp_all [deliverInputs]

/-! ### The PPU's cycles -/

/-- `t` is `s` but for the fields a PPU cycle may change. -/
def OnlyPpuCycle (s t : State) : Prop := ∃ q pd d o, t = { s with ppu := q, pending := pd, draws := d, outputs := o }

theorem OnlyPpuCycle.refl (s : State) : OnlyPpuCycle s s := ⟨s.ppu, s.pending, s.draws, s.outputs, rfl⟩

theorem OnlyPpuCycle.trans {s t u : State} (h : OnlyPpuCycle s t) (k : OnlyPpuCycle t u) : OnlyPpuCycle s u := by
  obtain ⟨_, _, _, _, rfl⟩ := h
  obtain ⟨q, pd, d, o, rfl⟩ := k
  exact ⟨q, pd, d, o, rfl⟩

theorem ppuAct_only (s : State) : OnlyPpuCycle s (ppuAct s) := by
  unfold ppuAct
  split
  · refine OnlyPpuCycle.trans (t := secondaryStep s) ?_ ?_
    · unfold secondaryStep
      split
      · exact ⟨_, s.pending, s.draws, s.outputs, rfl⟩
      · split
        · exact ⟨_, s.pending, s.draws, s.outputs, rfl⟩
        · exact .refl s
    · unfold spriteFlagsStep
      split
      · exact ⟨_, _, _, _, rfl⟩
      · exact .refl _
  · split
    · simp only [vblankStart]
      split <;> exact ⟨_, _, s.draws, _, rfl⟩
    · split
      · exact ⟨_, s.pending, s.draws, _, rfl⟩
      · exact .refl s

/-- Everything a PPU cycle can do (R10, R260): only the PPU, the pending latch, the draw counter and the outputs. -/
theorem ppuCycle_only (s : State) : OnlyPpuCycle s (ppuCycle s) :=
  (ppuAct_only s).trans ⟨_, _, _, _, rfl⟩

theorem ppuCycles_only (n : Nat) (s : State) : OnlyPpuCycle s (ppuCycles n s) := by
  induction n generalizing s with
  | zero => exact .refl s
  | succ n ih => exact (ppuCycle_only s).trans (ih _)

theorem ppuTick_only (s : State) : OnlyPpuCycle s (ppuTick s) := by
  refine (ppuCycles_only Config.ppuPerCpu s).trans ?_
  simp only [ppuTick]
  split
  · exact .refl _
  · exact ⟨_, _, _, _, rfl⟩

/-! ### Outcomes -/

@[simp] theorem andThen_next (s : State) (f : State → Out) : andThen (.next s) f = f s := rfl

@[simp] theorem andThen_refused (r : Refusal) (f : State → Out) : andThen (.refused r) f = .refused r := rfl

/-- From a next state, `andThen` took the first outcome's next state. -/
theorem andThen_eq_next {o : Out} {f : State → Out} {t : State} (h : andThen o f = .next t) :
    ∃ s, o = .next s ∧ f s = .next t := by
  cases o with
  | next s => exact ⟨s, rfl, h⟩
  | fault r => cases h
  | refused r => cases h

end Sys2Proof.Machine
end

