-- ==== Sys2Proof/Laws/PerInstr.lean ====
section
/-! SUPPORT. The family TableRow: every well-formed instruction has a row of the instruction table. -/

namespace Sys2Proof.Laws.TableRow

/-- A well-formed instruction has an opcode, whose table entry has its mnemonic and mode and is legal exactly when the
instruction is not an illegal opcode (R73, R92, R93). -/
def Statement (i : Instr) : Prop :=
  i.wf = true → ∃ op, i.opcode = some op ∧ (opEntry op).kind = i.mnemonic ∧ (opEntry op).mode = i.mode ∧
    (opEntry op).legal = (i.mnemonic != .ILLEGAL)

/-- A form the instruction set does not have. -/
theorem of_not_wf {i : Instr} (h : i.wf = false) : Statement i := fun h' => absurd (h.symm.trans h') Bool.false_ne_true

/-- The listed illegal opcodes have illegal entries. -/
theorem entry_of_illegal : ∀ op ∈ illegalOpcodes, opEntry op = bad := by decide

theorem lda (o : Src) : Statement (.lda o) := by
  rcases o with _ | (_ | _ | _ | _ | _ | _ | _ | _) <;> first | exact fun _ => ⟨_, rfl, rfl, rfl, rfl⟩ | exact of_not_wf rfl

theorem ldx (o : Src) : Statement (.ldx o) := by
  rcases o with _ | (_ | _ | _ | _ | _ | _ | _ | _) <;> first | exact fun _ => ⟨_, rfl, rfl, rfl, rfl⟩ | exact of_not_wf rfl

theorem ldy (o : Src) : Statement (.ldy o) := by
  rcases o with _ | (_ | _ | _ | _ | _ | _ | _ | _) <;> first | exact fun _ => ⟨_, rfl, rfl, rfl, rfl⟩ | exact of_not_wf rfl

theorem sta (m : Mem) : Statement (.sta m) := by
  cases m <;> first | exact fun _ => ⟨_, rfl, rfl, rfl, rfl⟩ | exact of_not_wf rfl

theorem stx (m : Mem) : Statement (.stx m) := by
  cases m <;> first | exact fun _ => ⟨_, rfl, rfl, rfl, rfl⟩ | exact of_not_wf rfl

theorem sty (m : Mem) : Statement (.sty m) := by
  cases m <;> first | exact fun _ => ⟨_, rfl, rfl, rfl, rfl⟩ | exact of_not_wf rfl

theorem tax : Statement .tax := fun _ => ⟨_, rfl, rfl, rfl, rfl⟩

theorem tay : Statement .tay := fun _ => ⟨_, rfl, rfl, rfl, rfl⟩

theorem txa : Statement .txa := fun _ => ⟨_, rfl, rfl, rfl, rfl⟩

theorem tya : Statement .tya := fun _ => ⟨_, rfl, rfl, rfl, rfl⟩

theorem tsx : Statement .tsx := fun _ => ⟨_, rfl, rfl, rfl, rfl⟩

theorem txs : Statement .txs := fun _ => ⟨_, rfl, rfl, rfl, rfl⟩

theorem pha : Statement .pha := fun _ => ⟨_, rfl, rfl, rfl, rfl⟩

theorem php : Statement .php := fun _ => ⟨_, rfl, rfl, rfl, rfl⟩

theorem pla : Statement .pla := fun _ => ⟨_, rfl, rfl, rfl, rfl⟩

theorem plp : Statement .plp := fun _ => ⟨_, rfl, rfl, rfl, rfl⟩

theorem adc (o : Src) : Statement (.adc o) := by
  rcases o with _ | (_ | _ | _ | _ | _ | _ | _ | _) <;> first | exact fun _ => ⟨_, rfl, rfl, rfl, rfl⟩ | exact of_not_wf rfl

theorem sbc (o : Src) : Statement (.sbc o) := by
  rcases o with _ | (_ | _ | _ | _ | _ | _ | _ | _) <;> first | exact fun _ => ⟨_, rfl, rfl, rfl, rfl⟩ | exact of_not_wf rfl

theorem cmp (o : Src) : Statement (.cmp o) := by
  rcases o with _ | (_ | _ | _ | _ | _ | _ | _ | _) <;> first | exact fun _ => ⟨_, rfl, rfl, rfl, rfl⟩ | exact of_not_wf rfl

theorem cpx (o : Src) : Statement (.cpx o) := by
  rcases o with _ | (_ | _ | _ | _ | _ | _ | _ | _) <;> first | exact fun _ => ⟨_, rfl, rfl, rfl, rfl⟩ | exact of_not_wf rfl

theorem cpy (o : Src) : Statement (.cpy o) := by
  rcases o with _ | (_ | _ | _ | _ | _ | _ | _ | _) <;> first | exact fun _ => ⟨_, rfl, rfl, rfl, rfl⟩ | exact of_not_wf rfl

theorem and (o : Src) : Statement (.and o) := by
  rcases o with _ | (_ | _ | _ | _ | _ | _ | _ | _) <;> first | exact fun _ => ⟨_, rfl, rfl, rfl, rfl⟩ | exact of_not_wf rfl

theorem ora (o : Src) : Statement (.ora o) := by
  rcases o with _ | (_ | _ | _ | _ | _ | _ | _ | _) <;> first | exact fun _ => ⟨_, rfl, rfl, rfl, rfl⟩ | exact of_not_wf rfl

theorem eor (o : Src) : Statement (.eor o) := by
  rcases o with _ | (_ | _ | _ | _ | _ | _ | _ | _) <;> first | exact fun _ => ⟨_, rfl, rfl, rfl, rfl⟩ | exact of_not_wf rfl

theorem bit (m : Mem) : Statement (.bit m) := by
  cases m <;> first | exact fun _ => ⟨_, rfl, rfl, rfl, rfl⟩ | exact of_not_wf rfl

theorem asl (o : Rmw) : Statement (.asl o) := by
  rcases o with _ | (_ | _ | _ | _ | _ | _ | _ | _) <;> first | exact fun _ => ⟨_, rfl, rfl, rfl, rfl⟩ | exact of_not_wf rfl

theorem lsr (o : Rmw) : Statement (.lsr o) := by
  rcases o with _ | (_ | _ | _ | _ | _ | _ | _ | _) <;> first | exact fun _ => ⟨_, rfl, rfl, rfl, rfl⟩ | exact of_not_wf rfl

theorem rol (o : Rmw) : Statement (.rol o) := by
  rcases o with _ | (_ | _ | _ | _ | _ | _ | _ | _) <;> first | exact fun _ => ⟨_, rfl, rfl, rfl, rfl⟩ | exact of_not_wf rfl

theorem ror (o : Rmw) : Statement (.ror o) := by
  rcases o with _ | (_ | _ | _ | _ | _ | _ | _ | _) <;> first | exact fun _ => ⟨_, rfl, rfl, rfl, rfl⟩ | exact of_not_wf rfl

theorem inc (m : Mem) : Statement (.inc m) := by
  cases m <;> first | exact fun _ => ⟨_, rfl, rfl, rfl, rfl⟩ | exact of_not_wf rfl

theorem dec (m : Mem) : Statement (.dec m) := by
  cases m <;> first | exact fun _ => ⟨_, rfl, rfl, rfl, rfl⟩ | exact of_not_wf rfl

theorem inx : Statement .inx := fun _ => ⟨_, rfl, rfl, rfl, rfl⟩

theorem iny : Statement .iny := fun _ => ⟨_, rfl, rfl, rfl, rfl⟩

theorem dex : Statement .dex := fun _ => ⟨_, rfl, rfl, rfl, rfl⟩

theorem dey : Statement .dey := fun _ => ⟨_, rfl, rfl, rfl, rfl⟩

theorem jmp (t : Target) : Statement (.jmp t) := by
  cases t <;> exact fun _ => ⟨_, rfl, rfl, rfl, rfl⟩

theorem jsr (w : Word) : Statement (.jsr w) := fun _ => ⟨_, rfl, rfl, rfl, rfl⟩

theorem rts : Statement .rts := fun _ => ⟨_, rfl, rfl, rfl, rfl⟩

theorem bcc (off : Byte) : Statement (.bcc off) := fun _ => ⟨_, rfl, rfl, rfl, rfl⟩

theorem bcs (off : Byte) : Statement (.bcs off) := fun _ => ⟨_, rfl, rfl, rfl, rfl⟩

theorem beq (off : Byte) : Statement (.beq off) := fun _ => ⟨_, rfl, rfl, rfl, rfl⟩

theorem bne (off : Byte) : Statement (.bne off) := fun _ => ⟨_, rfl, rfl, rfl, rfl⟩

theorem bmi (off : Byte) : Statement (.bmi off) := fun _ => ⟨_, rfl, rfl, rfl, rfl⟩

theorem bpl (off : Byte) : Statement (.bpl off) := fun _ => ⟨_, rfl, rfl, rfl, rfl⟩

theorem bvc (off : Byte) : Statement (.bvc off) := fun _ => ⟨_, rfl, rfl, rfl, rfl⟩

theorem bvs (off : Byte) : Statement (.bvs off) := fun _ => ⟨_, rfl, rfl, rfl, rfl⟩

theorem clc : Statement .clc := fun _ => ⟨_, rfl, rfl, rfl, rfl⟩

theorem sec : Statement .sec := fun _ => ⟨_, rfl, rfl, rfl, rfl⟩

theorem cli : Statement .cli := fun _ => ⟨_, rfl, rfl, rfl, rfl⟩

theorem sei : Statement .sei := fun _ => ⟨_, rfl, rfl, rfl, rfl⟩

theorem clv : Statement .clv := fun _ => ⟨_, rfl, rfl, rfl, rfl⟩

theorem cld : Statement .cld := fun _ => ⟨_, rfl, rfl, rfl, rfl⟩

theorem sed : Statement .sed := fun _ => ⟨_, rfl, rfl, rfl, rfl⟩

theorem nop : Statement .nop := fun _ => ⟨_, rfl, rfl, rfl, rfl⟩

theorem brk : Statement .brk := fun _ => ⟨_, rfl, rfl, rfl, rfl⟩

theorem rti : Statement .rti := fun _ => ⟨_, rfl, rfl, rfl, rfl⟩

theorem illegal (op : Byte) : Statement (.illegal op) := by
  intro h
  have e := entry_of_illegal op (List.contains_iff_mem.mp h)
  exact ⟨op, rfl, by rw [e]; rfl, by rw [e]; rfl, by rw [e]; rfl⟩

end Sys2Proof.Laws.TableRow
end

