-- ==== Sys2Proof/Tests/Slice0.lean ====
section
/-! SUPPORT. Tests: well-formedness, decoding, one step per instruction (expected results from 95_test_vectors.md, which
the spec computed by hand), the devices, and a witness for the hypotheses of each statement. -/

namespace Sys2Proof.Tests

open Sys2Proof.Machine Sys2Proof.Spec

/-! ### Well-formedness: a form each check refuses -/

/-- R100 to R105: no zero page,Y for LDA, no zero page,X for LDX, no zero page,Y for LDY, no absolute,X for STX and STY. -/
theorem test_wf_loads_stores :
    Instr.wf (.lda (.mem (.zpy 0x10))) = false ∧ Instr.wf (.ldx (.mem (.zpx 0x10))) = false ∧
    Instr.wf (.ldx (.mem (.absx 0x0200))) = false ∧ Instr.wf (.ldy (.mem (.zpy 0x10))) = false ∧
    Instr.wf (.ldy (.mem (.absy 0x0200))) = false ∧ Instr.wf (.sta (.zpy 0x10)) = false ∧
    Instr.wf (.stx (.zpx 0x10)) = false ∧ Instr.wf (.stx (.absy 0x0200)) = false ∧
    Instr.wf (.sty (.zpy 0x10)) = false ∧ Instr.wf (.sty (.absx 0x0200)) = false := by decide

/-- R130 to R134, R140 to R143. -/
theorem test_wf_arithmetic_logic :
    Instr.wf (.adc (.mem (.zpy 0x10))) = false ∧ Instr.wf (.sbc (.mem (.zpy 0x10))) = false ∧
    Instr.wf (.cmp (.mem (.zpy 0x10))) = false ∧ Instr.wf (.cpx (.mem (.zpx 0x10))) = false ∧
    Instr.wf (.cpy (.mem (.absx 0x0200))) = false ∧ Instr.wf (.and (.mem (.zpy 0x10))) = false ∧
    Instr.wf (.ora (.mem (.zpy 0x10))) = false ∧ Instr.wf (.eor (.mem (.zpy 0x10))) = false ∧
    Instr.wf (.bit (.zpx 0x10)) = false := by decide

/-- R151 to R156. -/
theorem test_wf_shifts_incdec :
    Instr.wf (.asl (.mem (.absy 0x0200))) = false ∧ Instr.wf (.lsr (.mem (.indx 0x10))) = false ∧
    Instr.wf (.rol (.mem (.indy 0x10))) = false ∧ Instr.wf (.ror (.mem (.zpy 0x10))) = false ∧
    Instr.wf (.inc (.absy 0x0200)) = false ∧ Instr.wf (.dec (.indy 0x10)) = false := by decide

/-- R93: 0xEA is NOP, not an illegal opcode; 0xEB, the last of its row, is one. -/
theorem test_wf_illegal :
    Instr.wf (.illegal 0xEA) = false ∧ Instr.wf (.illegal 0x00) = false ∧ Instr.wf (.illegal 0xEB) = true := by decide

/-! ### Decoding: every row of R92 -/

/-- The opcode bytes of R92, operand bytes low first (R72). -/
theorem test_decode_loads_stores :
    decode [0xA1, 0x9C] = .ok ((.lda (.mem (.indx 0x9C))), []) ∧
    decode [0xA5, 0x9C] = .ok ((.lda (.mem (.zp 0x9C))), []) ∧
    decode [0xA9, 0x9C] = .ok ((.lda (.imm 0x9C)), []) ∧
    decode [0xAD, 0x34, 0x12] = .ok ((.lda (.mem (.abs 0x1234))), []) ∧
    decode [0xB1, 0x9C] = .ok ((.lda (.mem (.indy 0x9C))), []) ∧
    decode [0xB5, 0x9C] = .ok ((.lda (.mem (.zpx 0x9C))), []) ∧
    decode [0xB9, 0x34, 0x12] = .ok ((.lda (.mem (.absy 0x1234))), []) ∧
    decode [0xBD, 0x34, 0x12] = .ok ((.lda (.mem (.absx 0x1234))), []) ∧
    decode [0xA2, 0x9C] = .ok ((.ldx (.imm 0x9C)), []) ∧
    decode [0xA6, 0x9C] = .ok ((.ldx (.mem (.zp 0x9C))), []) ∧
    decode [0xAE, 0x34, 0x12] = .ok ((.ldx (.mem (.abs 0x1234))), []) ∧
    decode [0xB6, 0x9C] = .ok ((.ldx (.mem (.zpy 0x9C))), []) ∧
    decode [0xBE, 0x34, 0x12] = .ok ((.ldx (.mem (.absy 0x1234))), []) ∧
    decode [0xA0, 0x9C] = .ok ((.ldy (.imm 0x9C)), []) ∧
    decode [0xA4, 0x9C] = .ok ((.ldy (.mem (.zp 0x9C))), []) ∧
    decode [0xAC, 0x34, 0x12] = .ok ((.ldy (.mem (.abs 0x1234))), []) ∧
    decode [0xB4, 0x9C] = .ok ((.ldy (.mem (.zpx 0x9C))), []) ∧
    decode [0xBC, 0x34, 0x12] = .ok ((.ldy (.mem (.absx 0x1234))), []) ∧
    decode [0x81, 0x9C] = .ok ((.sta (.indx 0x9C)), []) ∧
    decode [0x85, 0x9C] = .ok ((.sta (.zp 0x9C)), []) ∧
    decode [0x8D, 0x34, 0x12] = .ok ((.sta (.abs 0x1234)), []) ∧
    decode [0x91, 0x9C] = .ok ((.sta (.indy 0x9C)), []) ∧
    decode [0x95, 0x9C] = .ok ((.sta (.zpx 0x9C)), []) ∧
    decode [0x99, 0x34, 0x12] = .ok ((.sta (.absy 0x1234)), []) ∧
    decode [0x9D, 0x34, 0x12] = .ok ((.sta (.absx 0x1234)), []) ∧
    decode [0x86, 0x9C] = .ok ((.stx (.zp 0x9C)), []) ∧
    decode [0x8E, 0x34, 0x12] = .ok ((.stx (.abs 0x1234)), []) ∧
    decode [0x96, 0x9C] = .ok ((.stx (.zpy 0x9C)), []) ∧
    decode [0x84, 0x9C] = .ok ((.sty (.zp 0x9C)), []) ∧
    decode [0x8C, 0x34, 0x12] = .ok ((.sty (.abs 0x1234)), []) ∧
    decode [0x94, 0x9C] = .ok ((.sty (.zpx 0x9C)), []) := by and_intros <;> rfl

/-- The opcode bytes of R92, operand bytes low first (R72). -/
theorem test_decode_transfers_stack :
    decode [0xAA] = .ok (.tax, []) ∧
    decode [0xA8] = .ok (.tay, []) ∧
    decode [0x8A] = .ok (.txa, []) ∧
    decode [0x98] = .ok (.tya, []) ∧
    decode [0xBA] = .ok (.tsx, []) ∧
    decode [0x9A] = .ok (.txs, []) ∧
    decode [0x48] = .ok (.pha, []) ∧
    decode [0x08] = .ok (.php, []) ∧
    decode [0x68] = .ok (.pla, []) ∧
    decode [0x28] = .ok (.plp, []) := by and_intros <;> rfl

/-- The opcode bytes of R92, operand bytes low first (R72). -/
theorem test_decode_arithmetic :
    decode [0x61, 0x9C] = .ok ((.adc (.mem (.indx 0x9C))), []) ∧
    decode [0x65, 0x9C] = .ok ((.adc (.mem (.zp 0x9C))), []) ∧
    decode [0x69, 0x9C] = .ok ((.adc (.imm 0x9C)), []) ∧
    decode [0x6D, 0x34, 0x12] = .ok ((.adc (.mem (.abs 0x1234))), []) ∧
    decode [0x71, 0x9C] = .ok ((.adc (.mem (.indy 0x9C))), []) ∧
    decode [0x75, 0x9C] = .ok ((.adc (.mem (.zpx 0x9C))), []) ∧
    decode [0x79, 0x34, 0x12] = .ok ((.adc (.mem (.absy 0x1234))), []) ∧
    decode [0x7D, 0x34, 0x12] = .ok ((.adc (.mem (.absx 0x1234))), []) ∧
    decode [0xE1, 0x9C] = .ok ((.sbc (.mem (.indx 0x9C))), []) ∧
    decode [0xE5, 0x9C] = .ok ((.sbc (.mem (.zp 0x9C))), []) ∧
    decode [0xE9, 0x9C] = .ok ((.sbc (.imm 0x9C)), []) ∧
    decode [0xED, 0x34, 0x12] = .ok ((.sbc (.mem (.abs 0x1234))), []) ∧
    decode [0xF1, 0x9C] = .ok ((.sbc (.mem (.indy 0x9C))), []) ∧
    decode [0xF5, 0x9C] = .ok ((.sbc (.mem (.zpx 0x9C))), []) ∧
    decode [0xF9, 0x34, 0x12] = .ok ((.sbc (.mem (.absy 0x1234))), []) ∧
    decode [0xFD, 0x34, 0x12] = .ok ((.sbc (.mem (.absx 0x1234))), []) := by and_intros <;> rfl

/-- The opcode bytes of R92, operand bytes low first (R72). -/
theorem test_decode_compares :
    decode [0xC1, 0x9C] = .ok ((.cmp (.mem (.indx 0x9C))), []) ∧
    decode [0xC5, 0x9C] = .ok ((.cmp (.mem (.zp 0x9C))), []) ∧
    decode [0xC9, 0x9C] = .ok ((.cmp (.imm 0x9C)), []) ∧
    decode [0xCD, 0x34, 0x12] = .ok ((.cmp (.mem (.abs 0x1234))), []) ∧
    decode [0xD1, 0x9C] = .ok ((.cmp (.mem (.indy 0x9C))), []) ∧
    decode [0xD5, 0x9C] = .ok ((.cmp (.mem (.zpx 0x9C))), []) ∧
    decode [0xD9, 0x34, 0x12] = .ok ((.cmp (.mem (.absy 0x1234))), []) ∧
    decode [0xDD, 0x34, 0x12] = .ok ((.cmp (.mem (.absx 0x1234))), []) ∧
    decode [0xE0, 0x9C] = .ok ((.cpx (.imm 0x9C)), []) ∧
    decode [0xE4, 0x9C] = .ok ((.cpx (.mem (.zp 0x9C))), []) ∧
    decode [0xEC, 0x34, 0x12] = .ok ((.cpx (.mem (.abs 0x1234))), []) ∧
    decode [0xC0, 0x9C] = .ok ((.cpy (.imm 0x9C)), []) ∧
    decode [0xC4, 0x9C] = .ok ((.cpy (.mem (.zp 0x9C))), []) ∧
    decode [0xCC, 0x34, 0x12] = .ok ((.cpy (.mem (.abs 0x1234))), []) := by and_intros <;> rfl

/-- The opcode bytes of R92, operand bytes low first (R72). -/
theorem test_decode_logic :
    decode [0x21, 0x9C] = .ok ((.and (.mem (.indx 0x9C))), []) ∧
    decode [0x25, 0x9C] = .ok ((.and (.mem (.zp 0x9C))), []) ∧
    decode [0x29, 0x9C] = .ok ((.and (.imm 0x9C)), []) ∧
    decode [0x2D, 0x34, 0x12] = .ok ((.and (.mem (.abs 0x1234))), []) ∧
    decode [0x31, 0x9C] = .ok ((.and (.mem (.indy 0x9C))), []) ∧
    decode [0x35, 0x9C] = .ok ((.and (.mem (.zpx 0x9C))), []) ∧
    decode [0x39, 0x34, 0x12] = .ok ((.and (.mem (.absy 0x1234))), []) ∧
    decode [0x3D, 0x34, 0x12] = .ok ((.and (.mem (.absx 0x1234))), []) ∧
    decode [0x01, 0x9C] = .ok ((.ora (.mem (.indx 0x9C))), []) ∧
    decode [0x05, 0x9C] = .ok ((.ora (.mem (.zp 0x9C))), []) ∧
    decode [0x09, 0x9C] = .ok ((.ora (.imm 0x9C)), []) ∧
    decode [0x0D, 0x34, 0x12] = .ok ((.ora (.mem (.abs 0x1234))), []) ∧
    decode [0x11, 0x9C] = .ok ((.ora (.mem (.indy 0x9C))), []) ∧
    decode [0x15, 0x9C] = .ok ((.ora (.mem (.zpx 0x9C))), []) ∧
    decode [0x19, 0x34, 0x12] = .ok ((.ora (.mem (.absy 0x1234))), []) ∧
    decode [0x1D, 0x34, 0x12] = .ok ((.ora (.mem (.absx 0x1234))), []) ∧
    decode [0x41, 0x9C] = .ok ((.eor (.mem (.indx 0x9C))), []) ∧
    decode [0x45, 0x9C] = .ok ((.eor (.mem (.zp 0x9C))), []) ∧
    decode [0x49, 0x9C] = .ok ((.eor (.imm 0x9C)), []) ∧
    decode [0x4D, 0x34, 0x12] = .ok ((.eor (.mem (.abs 0x1234))), []) ∧
    decode [0x51, 0x9C] = .ok ((.eor (.mem (.indy 0x9C))), []) ∧
    decode [0x55, 0x9C] = .ok ((.eor (.mem (.zpx 0x9C))), []) ∧
    decode [0x59, 0x34, 0x12] = .ok ((.eor (.mem (.absy 0x1234))), []) ∧
    decode [0x5D, 0x34, 0x12] = .ok ((.eor (.mem (.absx 0x1234))), []) ∧
    decode [0x24, 0x9C] = .ok ((.bit (.zp 0x9C)), []) ∧
    decode [0x2C, 0x34, 0x12] = .ok ((.bit (.abs 0x1234)), []) := by and_intros <;> rfl

/-- The opcode bytes of R92, operand bytes low first (R72). -/
theorem test_decode_shifts :
    decode [0x06, 0x9C] = .ok ((.asl (.mem (.zp 0x9C))), []) ∧
    decode [0x0A] = .ok ((.asl .acc), []) ∧
    decode [0x0E, 0x34, 0x12] = .ok ((.asl (.mem (.abs 0x1234))), []) ∧
    decode [0x16, 0x9C] = .ok ((.asl (.mem (.zpx 0x9C))), []) ∧
    decode [0x1E, 0x34, 0x12] = .ok ((.asl (.mem (.absx 0x1234))), []) ∧
    decode [0x46, 0x9C] = .ok ((.lsr (.mem (.zp 0x9C))), []) ∧
    decode [0x4A] = .ok ((.lsr .acc), []) ∧
    decode [0x4E, 0x34, 0x12] = .ok ((.lsr (.mem (.abs 0x1234))), []) ∧
    decode [0x56, 0x9C] = .ok ((.lsr (.mem (.zpx 0x9C))), []) ∧
    decode [0x5E, 0x34, 0x12] = .ok ((.lsr (.mem (.absx 0x1234))), []) ∧
    decode [0x26, 0x9C] = .ok ((.rol (.mem (.zp 0x9C))), []) ∧
    decode [0x2A] = .ok ((.rol .acc), []) ∧
    decode [0x2E, 0x34, 0x12] = .ok ((.rol (.mem (.abs 0x1234))), []) ∧
    decode [0x36, 0x9C] = .ok ((.rol (.mem (.zpx 0x9C))), []) ∧
    decode [0x3E, 0x34, 0x12] = .ok ((.rol (.mem (.absx 0x1234))), []) ∧
    decode [0x66, 0x9C] = .ok ((.ror (.mem (.zp 0x9C))), []) ∧
    decode [0x6A] = .ok ((.ror .acc), []) ∧
    decode [0x6E, 0x34, 0x12] = .ok ((.ror (.mem (.abs 0x1234))), []) ∧
    decode [0x76, 0x9C] = .ok ((.ror (.mem (.zpx 0x9C))), []) ∧
    decode [0x7E, 0x34, 0x12] = .ok ((.ror (.mem (.absx 0x1234))), []) := by and_intros <;> rfl

/-- The opcode bytes of R92, operand bytes low first (R72). -/
theorem test_decode_inc_dec :
    decode [0xE6, 0x9C] = .ok ((.inc (.zp 0x9C)), []) ∧
    decode [0xEE, 0x34, 0x12] = .ok ((.inc (.abs 0x1234)), []) ∧
    decode [0xF6, 0x9C] = .ok ((.inc (.zpx 0x9C)), []) ∧
    decode [0xFE, 0x34, 0x12] = .ok ((.inc (.absx 0x1234)), []) ∧
    decode [0xC6, 0x9C] = .ok ((.dec (.zp 0x9C)), []) ∧
    decode [0xCE, 0x34, 0x12] = .ok ((.dec (.abs 0x1234)), []) ∧
    decode [0xD6, 0x9C] = .ok ((.dec (.zpx 0x9C)), []) ∧
    decode [0xDE, 0x34, 0x12] = .ok ((.dec (.absx 0x1234)), []) ∧
    decode [0xE8] = .ok (.inx, []) ∧
    decode [0xC8] = .ok (.iny, []) ∧
    decode [0xCA] = .ok (.dex, []) ∧
    decode [0x88] = .ok (.dey, []) := by and_intros <;> rfl

/-- The opcode bytes of R92, operand bytes low first (R72). -/
theorem test_decode_control :
    decode [0x4C, 0x34, 0x12] = .ok ((.jmp (.abs 0x1234)), []) ∧
    decode [0x6C, 0x34, 0x12] = .ok ((.jmp (.ind 0x1234)), []) ∧
    decode [0x20, 0x34, 0x12] = .ok ((.jsr 0x1234), []) ∧
    decode [0x60] = .ok (.rts, []) ∧
    decode [0x90, 0x9C] = .ok ((.bcc 0x9C), []) ∧
    decode [0xB0, 0x9C] = .ok ((.bcs 0x9C), []) ∧
    decode [0xF0, 0x9C] = .ok ((.beq 0x9C), []) ∧
    decode [0xD0, 0x9C] = .ok ((.bne 0x9C), []) ∧
    decode [0x30, 0x9C] = .ok ((.bmi 0x9C), []) ∧
    decode [0x10, 0x9C] = .ok ((.bpl 0x9C), []) ∧
    decode [0x50, 0x9C] = .ok ((.bvc 0x9C), []) ∧
    decode [0x70, 0x9C] = .ok ((.bvs 0x9C), []) := by and_intros <;> rfl

/-- The opcode bytes of R92, operand bytes low first (R72). -/
theorem test_decode_flags_system :
    decode [0x18] = .ok (.clc, []) ∧
    decode [0x38] = .ok (.sec, []) ∧
    decode [0x58] = .ok (.cli, []) ∧
    decode [0x78] = .ok (.sei, []) ∧
    decode [0xB8] = .ok (.clv, []) ∧
    decode [0xD8] = .ok (.cld, []) ∧
    decode [0xF8] = .ok (.sed, []) ∧
    decode [0xEA] = .ok (.nop, []) ∧
    decode [0x00] = .ok (.brk, []) ∧
    decode [0x40] = .ok (.rti, []) := by and_intros <;> rfl

/-- R93: the 105 listed opcodes are illegal, one byte long, whatever follows. -/
theorem test_decode_illegal :
    ∀ op ∈ illegalOpcodes, (decode [op, 0x34, 0x12]).toOption = some (.illegal op, [0x34, 0x12]) := by decide

/-- Bits numbered from the first byte: LDA #$10 is 10101001 00010000, JMP ($00FF) is 01101100 11111111 00000000, and an
operand left out of the word is zeros. -/
theorem test_decode_table_word :
    decodeTableWord 16 0b0001000010101001 = some (.lda (.imm 0x10)) ∧
    decodeTableWord 24 0b000000001111111101101100 = some (.jmp (.ind 0x00FF)) ∧
    decodeTableWord 8 0b10001101 = some (.sta (.abs 0x0000)) ∧
    decodeTableWord 8 0b00000010 = some (.illegal 0x02) := by decide

/-- R70: a list that ends inside an instruction is refused by name. -/
theorem test_decode_truncated :
    decode [] = .error .empty ∧ decode [0xA9] = .error (.truncated 0xA9) ∧
    decode [0x4C, 0x34] = .error (.truncated 0x4C) := by and_intros <;> rfl

/-! ### One step per instruction -/

/-- The bytes of a program at `pc`, and bytes of memory, put into a state. -/
def program (pc : Word) (bytes : List Byte) (cells : List (Word × Byte)) (s : State) : State :=
  cells.foldl (fun u c => placeByte c.1 c.2 u)
    (bytes.zipIdx.foldl (fun u b => placeByte (pc + BitVec.ofNat 16 b.2) b.1 u) { s with pc := pc })

/-- What a step leaves: A, X, Y, SP, P, PC, the cycles counted, `halted`, and the bytes at some addresses. -/
def ran (addresses : List Word) (s : State) : List Nat :=
  match step s with
  | .next t =>
    [t.a.toNat, t.x.toNat, t.y.toNat, t.sp.toNat, t.p.toNat, t.pc.toNat, t.totalCycles, t.halted.toNat] ++
      addresses.map (fun a => (busRead a t).1.toNat)
  | .fault _ => []
  | .refused _ => []

/-- 95_test_vectors.md, V-LS row 8: `LDA $02F0,X`. -/
theorem test_lda_ls8 :
    ran [] (program 0x8000 [0xBD, 0xF0, 0x02] [(0x0300, 0x22)] { State.reset with x := 0x10 }) =
      [0x22, 0x10, 0x00, 0xFD, 0x24, 0x8003, 5, 0] := by decide

/-- 95_test_vectors.md, V-LS row 12: `LDA ($FF),Y`. -/
theorem test_lda_ls12 :
    ran [] (program 0x8000 [0xB1, 0xFF]
      [(0x0000, 0x03), (0x00FF, 0x40), (0x0100, 0x06), (0x0340, 0x66), (0x0640, 0x99)] { State.reset with y := 0x00 }) =
      [0x66, 0x00, 0x00, 0xFD, 0x24, 0x8002, 5, 0] := by decide

/-- 95_test_vectors.md, V-LS row 15: `LDX $F0,Y`. -/
theorem test_ldx_ls15 :
    ran [] (program 0x8000 [0xB6, 0xF0] [(0x0010, 0x81)] { State.reset with y := 0x20 }) =
      [0x00, 0x81, 0x20, 0xFD, 0xA4, 0x8002, 4, 0] := by decide

/-- 95_test_vectors.md, V-LS row 16: `LDX $02FF,Y`. -/
theorem test_ldx_ls16 :
    ran [] (program 0x8000 [0xBE, 0xFF, 0x02] [(0x0301, 0x09)] { State.reset with y := 0x02 }) =
      [0x00, 0x09, 0x02, 0xFD, 0x24, 0x8003, 5, 0] := by decide

/-- 95_test_vectors.md, V-LS row 17: `LDY #$FF`. -/
theorem test_ldy_ls17 :
    ran [] (program 0x8000 [0xA0, 0xFF] [] State.reset) =
      [0x00, 0x00, 0xFF, 0xFD, 0xA4, 0x8002, 2, 0] := by decide

/-- 95_test_vectors.md, V-LS row 18: `LDY $02FF,X`. -/
theorem test_ldy_ls18 :
    ran [] (program 0x8000 [0xBC, 0xFF, 0x02] [(0x0300, 0x00)] { State.reset with x := 0x01 }) =
      [0x00, 0x01, 0x00, 0xFD, 0x26, 0x8003, 5, 0] := by decide

/-- 95_test_vectors.md, V-LS row 21: `STA $02FF,X`. -/
theorem test_sta_ls21 :
    ran [0x0300] (program 0x8000 [0x9D, 0xFF, 0x02] [] { State.reset with a := 0x12, x := 0x01 }) =
      [0x12, 0x01, 0x00, 0xFD, 0x24, 0x8003, 5, 0, 0x12] := by decide

/-- 95_test_vectors.md, V-LS row 24: `STA ($20),Y`. -/
theorem test_sta_ls24 :
    ran [0x0400] (program 0x8000 [0x91, 0x20]
      [(0x0020, 0x01), (0x0021, 0x03)] { State.reset with a := 0x15, y := 0xFF }) =
      [0x15, 0x00, 0xFF, 0xFD, 0x24, 0x8002, 6, 0, 0x15] := by decide

/-- 95_test_vectors.md, V-LS row 26: `STX $0200`. -/
theorem test_stx_ls26 :
    ran [0x0200] (program 0x8000 [0x8E, 0x00, 0x02] [] { State.reset with x := 0x80 }) =
      [0x00, 0x80, 0x00, 0xFD, 0x24, 0x8003, 4, 0, 0x80] := by decide

/-- 95_test_vectors.md, V-LS row 27: `STX $FF,Y`. -/
theorem test_stx_ls27 :
    ran [0x0001] (program 0x8000 [0x96, 0xFF] [] { State.reset with x := 0x21, y := 0x02 }) =
      [0x00, 0x21, 0x02, 0xFD, 0x24, 0x8002, 4, 0, 0x21] := by decide

/-- 95_test_vectors.md, V-LS row 28: `STY $10`. -/
theorem test_sty_ls28 :
    ran [0x0010] (program 0x8000 [0x84, 0x10] [] { State.reset with y := 0x01 }) =
      [0x00, 0x00, 0x01, 0xFD, 0x24, 0x8002, 3, 0, 0x01] := by decide

/-- 95_test_vectors.md, V-LS row 29: `STY $10,X`. -/
theorem test_sty_ls29 :
    ran [0x0000] (program 0x8000 [0x94, 0x10] [] { State.reset with x := 0xF0, y := 0x00, p := 0x24 }) =
      [0x00, 0xF0, 0x00, 0xFD, 0x24, 0x8002, 4, 0, 0x00] := by decide

/-- 95_test_vectors.md, V-TS row 1: `TAX`. -/
theorem test_tax_ts1 :
    ran [] (program 0x8000 [0xAA] [] { State.reset with a := 0x80 }) =
      [0x80, 0x80, 0x00, 0xFD, 0xA4, 0x8001, 2, 0] := by decide

/-- 95_test_vectors.md, V-TS row 2: `TAY`. -/
theorem test_tay_ts2 :
    ran [] (program 0x8000 [0xA8] [] { State.reset with a := 0x00, y := 0x33 }) =
      [0x00, 0x00, 0x00, 0xFD, 0x26, 0x8001, 2, 0] := by decide

/-- 95_test_vectors.md, V-TS row 3: `TXA`. -/
theorem test_txa_ts3 :
    ran [] (program 0x8000 [0x8A] [] { State.reset with x := 0x7F }) =
      [0x7F, 0x7F, 0x00, 0xFD, 0x24, 0x8001, 2, 0] := by decide

/-- 95_test_vectors.md, V-TS row 4: `TYA`. -/
theorem test_tya_ts4 :
    ran [] (program 0x8000 [0x98] [] { State.reset with y := 0xFF }) =
      [0xFF, 0x00, 0xFF, 0xFD, 0xA4, 0x8001, 2, 0] := by decide

/-- 95_test_vectors.md, V-TS row 5: `TSX`. -/
theorem test_tsx_ts5 :
    ran [] (program 0x8000 [0xBA] [] State.reset) =
      [0x00, 0xFD, 0x00, 0xFD, 0xA4, 0x8001, 2, 0] := by decide

/-- 95_test_vectors.md, V-TS row 8: `TXS`. -/
theorem test_txs_ts8 :
    ran [] (program 0x8000 [0x9A] [] { State.reset with x := 0x00, p := 0xA4 }) =
      [0x00, 0x00, 0x00, 0x00, 0xA4, 0x8001, 2, 0] := by decide

/-- 95_test_vectors.md, V-TS row 10: `PHA`. -/
theorem test_pha_ts10 :
    ran [0x0100] (program 0x8000 [0x48] [] { State.reset with a := 0x42, sp := 0x00 }) =
      [0x42, 0x00, 0x00, 0xFF, 0x24, 0x8001, 3, 0, 0x42] := by decide

/-- 95_test_vectors.md, V-TS row 11: `PHP`. -/
theorem test_php_ts11 :
    ran [0x01FD] (program 0x8000 [0x08] [] { State.reset with p := 0x24 }) =
      [0x00, 0x00, 0x00, 0xFC, 0x24, 0x8001, 3, 0, 0x34] := by decide

/-- 95_test_vectors.md, V-TS row 12: `PHP`. -/
theorem test_php_ts12 :
    ran [0x01FD] (program 0x8000 [0x08] [] { State.reset with p := 0xEF }) =
      [0x00, 0x00, 0x00, 0xFC, 0xEF, 0x8001, 3, 0, 0xFF] := by decide

/-- 95_test_vectors.md, V-TS row 13: `PLA`. -/
theorem test_pla_ts13 :
    ran [] (program 0x8000 [0x68] [(0x01FD, 0x00)] { State.reset with a := 0x11, sp := 0xFC }) =
      [0x00, 0x00, 0x00, 0xFD, 0x26, 0x8001, 4, 0] := by decide

/-- 95_test_vectors.md, V-TS row 14: `PLA`. -/
theorem test_pla_ts14 :
    ran [] (program 0x8000 [0x68] [(0x0100, 0x9C)] { State.reset with sp := 0xFF }) =
      [0x9C, 0x00, 0x00, 0x00, 0xA4, 0x8001, 4, 0] := by decide

/-- 95_test_vectors.md, V-TS row 15: `PLP`. -/
theorem test_plp_ts15 :
    ran [] (program 0x8000 [0x28] [(0x01FD, 0xC3)] { State.reset with sp := 0xFC }) =
      [0x00, 0x00, 0x00, 0xFD, 0xE3, 0x8001, 4, 0] := by decide

/-- 95_test_vectors.md, V-TS row 16: `PLP`. -/
theorem test_plp_ts16 :
    ran [] (program 0x8000 [0x28] [(0x01FD, 0x00)] { State.reset with sp := 0xFC, p := 0x34 }) =
      [0x00, 0x00, 0x00, 0xFD, 0x20, 0x8001, 4, 0] := by decide

/-- 95_test_vectors.md, V-AR row 3: `ADC #$90`. -/
theorem test_adc_ar3 :
    ran [] (program 0x8000 [0x69, 0x90] [] { State.reset with a := 0xD0 }) =
      [0x60, 0x00, 0x00, 0xFD, 0x65, 0x8002, 2, 0] := by decide

/-- 95_test_vectors.md, V-AR row 6: `ADC #$7F`. -/
theorem test_adc_ar6 :
    ran [] (program 0x8000 [0x69, 0x7F] [] { State.reset with a := 0x00, p := 0x25 }) =
      [0x80, 0x00, 0x00, 0xFD, 0xE4, 0x8002, 2, 0] := by decide

/-- 95_test_vectors.md, V-AR row 13: `SBC #$B0`. -/
theorem test_sbc_ar13 :
    ran [] (program 0x8000 [0xE9, 0xB0] [] { State.reset with a := 0x50, p := 0x25 }) =
      [0xA0, 0x00, 0x00, 0xFD, 0xE4, 0x8002, 2, 0] := by decide

/-- 95_test_vectors.md, V-AR row 17: `SBC #$00`. -/
theorem test_sbc_ar17 :
    ran [] (program 0x8000 [0xE9, 0x00] [] { State.reset with a := 0x00, p := 0x24 }) =
      [0xFF, 0x00, 0x00, 0xFD, 0xA4, 0x8002, 2, 0] := by decide

/-- 95_test_vectors.md, V-AR row 23: `CMP #$40`. -/
theorem test_cmp_ar23 :
    ran [] (program 0x8000 [0xC9, 0x40] [] { State.reset with a := 0x40, p := 0xE4 }) =
      [0x40, 0x00, 0x00, 0xFD, 0x67, 0x8002, 2, 0] := by decide

/-- 95_test_vectors.md, V-AR row 25: `CMP #$FF`. -/
theorem test_cmp_ar25 :
    ran [] (program 0x8000 [0xC9, 0xFF] [] { State.reset with a := 0x00 }) =
      [0x00, 0x00, 0x00, 0xFD, 0x24, 0x8002, 2, 0] := by decide

/-- 95_test_vectors.md, V-AR row 27: `CPX #$10`. -/
theorem test_cpx_ar27 :
    ran [] (program 0x8000 [0xE0, 0x10] [] { State.reset with x := 0x10 }) =
      [0x00, 0x10, 0x00, 0xFD, 0x27, 0x8002, 2, 0] := by decide

/-- 95_test_vectors.md, V-AR row 28: `CPX $10`. -/
theorem test_cpx_ar28 :
    ran [] (program 0x8000 [0xE4, 0x10] [(0x0010, 0x01)] { State.reset with x := 0x00 }) =
      [0x00, 0x00, 0x00, 0xFD, 0xA4, 0x8002, 3, 0] := by decide

/-- 95_test_vectors.md, V-AR row 29: `CPY #$80`. -/
theorem test_cpy_ar29 :
    ran [] (program 0x8000 [0xC0, 0x80] [] { State.reset with y := 0x7F }) =
      [0x00, 0x00, 0x7F, 0xFD, 0xA4, 0x8002, 2, 0] := by decide

/-- 95_test_vectors.md, V-AR row 30: `CPY $0200`. -/
theorem test_cpy_ar30 :
    ran [] (program 0x8000 [0xCC, 0x00, 0x02] [(0x0200, 0x7F)] { State.reset with y := 0xFF }) =
      [0x00, 0x00, 0xFF, 0xFD, 0xA5, 0x8003, 4, 0] := by decide

/-- 95_test_vectors.md, V-LG row 1: `AND #$0F`. -/
theorem test_and_lg1 :
    ran [] (program 0x8000 [0x29, 0x0F] [] { State.reset with a := 0xF0 }) =
      [0x00, 0x00, 0x00, 0xFD, 0x26, 0x8002, 2, 0] := by decide

/-- 95_test_vectors.md, V-LG row 3: `AND ($10),Y`. -/
theorem test_and_lg3 :
    ran [] (program 0x8000 [0x31, 0x10]
      [(0x0010, 0x80), (0x0011, 0x02), (0x0300, 0x3C)] { State.reset with a := 0xFF, y := 0x80 }) =
      [0x3C, 0x00, 0x80, 0xFD, 0x24, 0x8002, 6, 0] := by decide

/-- 95_test_vectors.md, V-LG row 4: `ORA #$80`. -/
theorem test_ora_lg4 :
    ran [] (program 0x8000 [0x09, 0x80] [] { State.reset with a := 0x01 }) =
      [0x81, 0x00, 0x00, 0xFD, 0xA4, 0x8002, 2, 0] := by decide

/-- 95_test_vectors.md, V-LG row 6: `EOR #$FF`. -/
theorem test_eor_lg6 :
    ran [] (program 0x8000 [0x49, 0xFF] [] { State.reset with a := 0x55 }) =
      [0xAA, 0x00, 0x00, 0xFD, 0xA4, 0x8002, 2, 0] := by decide

/-- 95_test_vectors.md, V-LG row 9: `BIT $10`. -/
theorem test_bit_lg9 :
    ran [] (program 0x8000 [0x24, 0x10] [(0x0010, 0x3F)] { State.reset with a := 0xFF, p := 0xE6 }) =
      [0xFF, 0x00, 0x00, 0xFD, 0x24, 0x8002, 3, 0] := by decide

/-- 95_test_vectors.md, V-LG row 11: `BIT $0200`. -/
theorem test_bit_lg11 :
    ran [] (program 0x8000 [0x2C, 0x00, 0x02] [(0x0200, 0x80)] { State.reset with a := 0x00 }) =
      [0x00, 0x00, 0x00, 0xFD, 0xA6, 0x8003, 4, 0] := by decide

/-- 95_test_vectors.md, V-SH row 1: `ASL A`. -/
theorem test_asl_sh1 :
    ran [] (program 0x8000 [0x0A] [] { State.reset with a := 0x81 }) =
      [0x02, 0x00, 0x00, 0xFD, 0x25, 0x8001, 2, 0] := by decide

/-- 95_test_vectors.md, V-SH row 4: `ASL $10`. -/
theorem test_asl_sh4 :
    ran [0x0010] (program 0x8000 [0x06, 0x10] [(0x0010, 0x55)] State.reset) =
      [0x00, 0x00, 0x00, 0xFD, 0xA4, 0x8002, 5, 0, 0xAA] := by decide

/-- 95_test_vectors.md, V-SH row 6: `LSR A`. -/
theorem test_lsr_sh6 :
    ran [] (program 0x8000 [0x4A] [] { State.reset with a := 0x01, p := 0xA4 }) =
      [0x00, 0x00, 0x00, 0xFD, 0x27, 0x8001, 2, 0] := by decide

/-- 95_test_vectors.md, V-SH row 7: `LSR $0200,X`. -/
theorem test_lsr_sh7 :
    ran [0x0201] (program 0x8000 [0x5E, 0x00, 0x02] [(0x0201, 0x80)] { State.reset with x := 0x01 }) =
      [0x00, 0x01, 0x00, 0xFD, 0x24, 0x8003, 7, 0, 0x40] := by decide

/-- 95_test_vectors.md, V-SH row 8: `ROL A`. -/
theorem test_rol_sh8 :
    ran [] (program 0x8000 [0x2A] [] { State.reset with a := 0x40, p := 0x25 }) =
      [0x81, 0x00, 0x00, 0xFD, 0xA4, 0x8001, 2, 0] := by decide

/-- 95_test_vectors.md, V-SH row 10: `ROL $10,X`. -/
theorem test_rol_sh10 :
    ran [0x0000] (program 0x8000 [0x36, 0x10] [(0x0000, 0xFF)] { State.reset with x := 0xF0, p := 0x25 }) =
      [0x00, 0xF0, 0x00, 0xFD, 0xA5, 0x8002, 6, 0, 0xFF] := by decide

/-- 95_test_vectors.md, V-SH row 11: `ROR A`. -/
theorem test_ror_sh11 :
    ran [] (program 0x8000 [0x6A] [] { State.reset with a := 0x02, p := 0x25 }) =
      [0x81, 0x00, 0x00, 0xFD, 0xA4, 0x8001, 2, 0] := by decide

/-- 95_test_vectors.md, V-SH row 13: `ROR $0200`. -/
theorem test_ror_sh13 :
    ran [0x0200] (program 0x8000 [0x6E, 0x00, 0x02] [(0x0200, 0x01)] { State.reset with p := 0x25 }) =
      [0x00, 0x00, 0x00, 0xFD, 0xA5, 0x8003, 6, 0, 0x80] := by decide

/-- 95_test_vectors.md, V-SH row 14: `INC $10`. -/
theorem test_inc_sh14 :
    ran [0x0010] (program 0x8000 [0xE6, 0x10] [(0x0010, 0xFF)] State.reset) =
      [0x00, 0x00, 0x00, 0xFD, 0x26, 0x8002, 5, 0, 0x00] := by decide

/-- 95_test_vectors.md, V-SH row 16: `INC $02FF,X`. -/
theorem test_inc_sh16 :
    ran [0x0300] (program 0x8000 [0xFE, 0xFF, 0x02] [(0x0300, 0x00)] { State.reset with x := 0x01 }) =
      [0x00, 0x01, 0x00, 0xFD, 0x24, 0x8003, 7, 0, 0x01] := by decide

/-- 95_test_vectors.md, V-SH row 17: `DEC $10`. -/
theorem test_dec_sh17 :
    ran [0x0010] (program 0x8000 [0xC6, 0x10] [(0x0010, 0x00)] State.reset) =
      [0x00, 0x00, 0x00, 0xFD, 0xA4, 0x8002, 5, 0, 0xFF] := by decide

/-- 95_test_vectors.md, V-SH row 19: `DEC $10`. -/
theorem test_dec_sh19 :
    ran [0x0010] (program 0x8000 [0xC6, 0x10] [(0x0010, 0x80)] State.reset) =
      [0x00, 0x00, 0x00, 0xFD, 0x24, 0x8002, 5, 0, 0x7F] := by decide

/-- 95_test_vectors.md, V-SH row 20: `INX`. -/
theorem test_inx_sh20 :
    ran [] (program 0x8000 [0xE8] [] { State.reset with x := 0xFF }) =
      [0x00, 0x00, 0x00, 0xFD, 0x26, 0x8001, 2, 0] := by decide

/-- 95_test_vectors.md, V-SH row 21: `INY`. -/
theorem test_iny_sh21 :
    ran [] (program 0x8000 [0xC8] [] { State.reset with y := 0x7F }) =
      [0x00, 0x00, 0x80, 0xFD, 0xA4, 0x8001, 2, 0] := by decide

/-- 95_test_vectors.md, V-SH row 22: `DEX`. -/
theorem test_dex_sh22 :
    ran [] (program 0x8000 [0xCA] [] { State.reset with x := 0x00 }) =
      [0x00, 0xFF, 0x00, 0xFD, 0xA4, 0x8001, 2, 0] := by decide

/-- 95_test_vectors.md, V-SH row 24: `DEY`. -/
theorem test_dey_sh24 :
    ran [] (program 0x8000 [0x88] [] { State.reset with y := 0x01 }) =
      [0x00, 0x00, 0x00, 0xFD, 0x26, 0x8001, 2, 0] := by decide

/-- 95_test_vectors.md, V-SH row 25: `DEY`. -/
theorem test_dey_sh25 :
    ran [] (program 0x8000 [0x88] [] { State.reset with y := 0x00, p := 0x25 }) =
      [0x00, 0x00, 0xFF, 0xFD, 0xA5, 0x8001, 2, 0] := by decide

/-- 95_test_vectors.md, V-CT row 2: `JMP ($0200)`. -/
theorem test_jmp_ct2 :
    ran [] (program 0x8000 [0x6C, 0x00, 0x02] [(0x0200, 0x34), (0x0201, 0x12)] State.reset) =
      [0x00, 0x00, 0x00, 0xFD, 0x24, 0x1234, 5, 0] := by decide

/-- 95_test_vectors.md, V-CT row 4: `JMP ($02FF)`. -/
theorem test_jmp_ct4 :
    ran [] (program 0x8000 [0x6C, 0xFF, 0x02] [(0x0200, 0x56), (0x02FF, 0x78), (0x0300, 0xEE)] State.reset) =
      [0x00, 0x00, 0x00, 0xFD, 0x24, 0x5678, 5, 0] := by decide

/-- 95_test_vectors.md, V-CT row 6: `JSR $9000`. -/
theorem test_jsr_ct6 :
    ran [0x0100, 0x01FF] (program 0x8000 [0x20, 0x00, 0x90] [] { State.reset with sp := 0x00 }) =
      [0x00, 0x00, 0x00, 0xFE, 0x24, 0x9000, 6, 0, 0x80, 0x02] := by decide

/-- 95_test_vectors.md, V-CT row 7: `JSR $0300`. -/
theorem test_jsr_ct7 :
    ran [0x01FD, 0x01FC] (program 0xFFFD [0x20, 0x00, 0x03] [] State.reset) =
      [0x00, 0x00, 0x00, 0xFB, 0x24, 0x0300, 6, 0, 0xFF, 0xFF] := by decide

/-- 95_test_vectors.md, V-CT row 9: `RTS`. -/
theorem test_rts_ct9 :
    ran [] (program 0x8000 [0x60] [(0x01FC, 0xFF), (0x01FD, 0xFF)] { State.reset with sp := 0xFB }) =
      [0x00, 0x00, 0x00, 0xFD, 0x24, 0x0000, 6, 0] := by decide

/-- 95_test_vectors.md, V-CT row 10: `RTS`. -/
theorem test_rts_ct10 :
    ran [] (program 0x8000 [0x60] [(0x0100, 0x20), (0x01FF, 0x10)] { State.reset with sp := 0xFE }) =
      [0x00, 0x00, 0x00, 0x00, 0x24, 0x2011, 6, 0] := by decide

/-- 95_test_vectors.md, V-CT row 12: `BCC +5`. -/
theorem test_bcc_ct12 :
    ran [] (program 0x8000 [0x90, 0x05] [] { State.reset with p := 0x25 }) =
      [0x00, 0x00, 0x00, 0xFD, 0x25, 0x8002, 2, 0] := by decide

/-- 95_test_vectors.md, V-CT row 13: `BCS -2`. -/
theorem test_bcs_ct13 :
    ran [] (program 0x8000 [0xB0, 0xFE] [] { State.reset with p := 0x25 }) =
      [0x00, 0x00, 0x00, 0xFD, 0x25, 0x8000, 3, 0] := by decide

/-- 95_test_vectors.md, V-CT row 14: `BEQ +1`. -/
theorem test_beq_ct14 :
    ran [] (program 0x80FD [0xF0, 0x01] [] { State.reset with p := 0x26 }) =
      [0x00, 0x00, 0x00, 0xFD, 0x26, 0x8100, 4, 0] := by decide

/-- 95_test_vectors.md, V-CT row 16: `BNE -5`. -/
theorem test_bne_ct16 :
    ran [] (program 0x8100 [0xD0, 0xFB] [] { State.reset with p := 0x24 }) =
      [0x00, 0x00, 0x00, 0xFD, 0x24, 0x80FD, 4, 0] := by decide

/-- 95_test_vectors.md, V-CT row 18: `BMI +127`. -/
theorem test_bmi_ct18 :
    ran [] (program 0x8080 [0x30, 0x7F] [] { State.reset with p := 0xA4 }) =
      [0x00, 0x00, 0x00, 0xFD, 0xA4, 0x8101, 4, 0] := by decide

/-- 95_test_vectors.md, V-CT row 19: `BPL -128`. -/
theorem test_bpl_ct19 :
    ran [] (program 0x8000 [0x10, 0x80] [] { State.reset with p := 0x24 }) =
      [0x00, 0x00, 0x00, 0xFD, 0x24, 0x7F82, 4, 0] := by decide

/-- 95_test_vectors.md, V-CT row 20: `BPL -128`. -/
theorem test_bpl_ct20 :
    ran [] (program 0x8000 [0x10, 0x80] [] { State.reset with p := 0xA4 }) =
      [0x00, 0x00, 0x00, 0xFD, 0xA4, 0x8002, 2, 0] := by decide

/-- 95_test_vectors.md, V-CT row 21: `BVC +2`. -/
theorem test_bvc_ct21 :
    ran [] (program 0x8000 [0x50, 0x02] [] { State.reset with p := 0x24 }) =
      [0x00, 0x00, 0x00, 0xFD, 0x24, 0x8004, 3, 0] := by decide

/-- 95_test_vectors.md, V-CT row 22: `BVS +2`. -/
theorem test_bvs_ct22 :
    ran [] (program 0x8000 [0x70, 0x02] [] { State.reset with p := 0x24 }) =
      [0x00, 0x00, 0x00, 0xFD, 0x24, 0x8002, 2, 0] := by decide

/-- 95_test_vectors.md, V-CT row 23: `BVS +2`. -/
theorem test_bvs_ct23 :
    ran [] (program 0x8000 [0x70, 0x02] [] { State.reset with p := 0x64 }) =
      [0x00, 0x00, 0x00, 0xFD, 0x64, 0x8004, 3, 0] := by decide

/-- 95_test_vectors.md, V-CT row 25: `BCC +2`. -/
theorem test_bcc_ct25 :
    ran [] (program 0xFFFD [0x90, 0x02] [] { State.reset with p := 0x24 }) =
      [0x00, 0x00, 0x00, 0xFD, 0x24, 0x0001, 4, 0] := by decide

/-- 95_test_vectors.md, V-FS row 1: `CLC`. -/
theorem test_clc_fs1 :
    ran [] (program 0x8000 [0x18] [] { State.reset with p := 0x25 }) =
      [0x00, 0x00, 0x00, 0xFD, 0x24, 0x8001, 2, 0] := by decide

/-- 95_test_vectors.md, V-FS row 2: `SEC`. -/
theorem test_sec_fs2 :
    ran [] (program 0x8000 [0x38] [] { State.reset with p := 0x24 }) =
      [0x00, 0x00, 0x00, 0xFD, 0x25, 0x8001, 2, 0] := by decide

/-- 95_test_vectors.md, V-FS row 3: `CLI`. -/
theorem test_cli_fs3 :
    ran [] (program 0x8000 [0x58] [] { State.reset with p := 0x24 }) =
      [0x00, 0x00, 0x00, 0xFD, 0x20, 0x8001, 2, 0] := by decide

/-- 95_test_vectors.md, V-FS row 4: `SEI`. -/
theorem test_sei_fs4 :
    ran [] (program 0x8000 [0x78] [] { State.reset with p := 0x20 }) =
      [0x00, 0x00, 0x00, 0xFD, 0x24, 0x8001, 2, 0] := by decide

/-- 95_test_vectors.md, V-FS row 5: `CLV`. -/
theorem test_clv_fs5 :
    ran [] (program 0x8000 [0xB8] [] { State.reset with p := 0x64 }) =
      [0x00, 0x00, 0x00, 0xFD, 0x24, 0x8001, 2, 0] := by decide

/-- 95_test_vectors.md, V-FS row 6: `CLD`. -/
theorem test_cld_fs6 :
    ran [] (program 0x8000 [0xD8] [] { State.reset with p := 0x2C }) =
      [0x00, 0x00, 0x00, 0xFD, 0x24, 0x8001, 2, 0] := by decide

/-- 95_test_vectors.md, V-FS row 7: `SED`. -/
theorem test_sed_fs7 :
    ran [] (program 0x8000 [0xF8] [] { State.reset with p := 0x24 }) =
      [0x00, 0x00, 0x00, 0xFD, 0x2C, 0x8001, 2, 0] := by decide

/-- 95_test_vectors.md, V-FS row 8: `NOP`. -/
theorem test_nop_fs8 :
    ran [] (program 0x8000 [0xEA] [] { State.reset with a := 0x12, x := 0x34, y := 0x56, p := 0xE7 }) =
      [0x12, 0x34, 0x56, 0xFD, 0xE7, 0x8001, 2, 0] := by decide

/-- 95_test_vectors.md, V-FS row 9: `BRK`. -/
theorem test_brk_fs9 :
    ran [0x01FD, 0x01FC, 0x01FB] (program 0x8000 [0x00, 0xAB]
      [(0xFFFE, 0x00), (0xFFFF, 0x90)] { State.reset with p := 0x20 }) =
      [0x00, 0x00, 0x00, 0xFA, 0x24, 0x9000, 7, 0, 0x80, 0x02, 0x30] := by decide

/-- 95_test_vectors.md, V-FS row 10: `BRK`. -/
theorem test_brk_fs10 :
    ran [0x0101, 0x0100, 0x01FF] (program 0x8000 [0x00, 0xAB]
      [(0xFFFE, 0x00), (0xFFFF, 0x90)] { State.reset with sp := 0x01, p := 0xE7 }) =
      [0x00, 0x00, 0x00, 0xFE, 0xE7, 0x9000, 7, 0, 0x80, 0x02, 0xF7] := by decide

/-- 95_test_vectors.md, V-FS row 11: `RTI`. -/
theorem test_rti_fs11 :
    ran [] (program 0x8000 [0x40]
      [(0x01FB, 0x30), (0x01FC, 0x02), (0x01FD, 0x80)] { State.reset with sp := 0xFA, p := 0x24 }) =
      [0x00, 0x00, 0x00, 0xFD, 0x30, 0x8002, 6, 0] := by decide

/-- 95_test_vectors.md, V-FS row 13: `RTI`. -/
theorem test_rti_fs13 :
    ran [] (program 0x8000 [0x40]
      [(0x0100, 0x34), (0x0101, 0x12), (0x01FF, 0x00)] { State.reset with sp := 0xFE, p := 0x24 }) =
      [0x00, 0x00, 0x00, 0x01, 0x20, 0x1234, 6, 0] := by decide

/-- 95_test_vectors.md, V-IL row 1: `(illegal $02)`. -/
theorem test_illegal_il1 :
    ran [] (program 0x8000 [0x02, 0xEA] [] State.reset) =
      [0x00, 0x00, 0x00, 0xFD, 0x24, 0x8001, 1, 1] := by decide

/-- 95_test_vectors.md, V-IL row 4: `(illegal $EB)`. -/
theorem test_illegal_il4 :
    ran [] (program 0x8000 [0xEB, 0x01] [] { State.reset with a := 0x10, p := 0x25 }) =
      [0x10, 0x00, 0x00, 0xFD, 0x25, 0x8001, 1, 1] := by decide


/-- `withFetchWord`: the next step runs the instruction, at PC (here $FFFF, its operand bytes at $0000 on), or in RAM at
$0200 where PC designates no memory (log entry 3). -/
theorem test_with_fetch_word :
    ran [] (State.reset.withFetchWord 16 0x80A9) = [0x80, 0x00, 0x00, 0xFD, 0xA4, 0x0001, 2, 0] ∧
    ran [] ({ State.reset with pc := 0x4000 }.withFetchWord 8 0xEA) =
      [0x00, 0x00, 0x00, 0xFD, 0x24, 0x0201, 2, 0] := by decide

/-! ### Interrupts and reset (95_test_vectors.md section 3) -/

/-- FlatROM with the vectors of section 3: NMI $A000, Reset $8000, IRQ/BRK $9000. -/
def vectors (s : State) : State :=
  program s.pc []
    [(0xFFFA, 0x00), (0xFFFB, 0xA0), (0xFFFC, 0x00), (0xFFFD, 0x80), (0xFFFE, 0x00), (0xFFFF, 0x90)] s

/-- I1, from tick 4 to tick 11: IRQ accepted with I clear, $80 $02 $20 pushed. -/
theorem test_irq_entry :
    ran [0x01FD, 0x01FC, 0x01FB]
        (vectors { State.reset with pc := 0x8002, p := 0x20, totalCycles := 4, pending := ⟨false, true, false⟩ }) =
      [0x00, 0x00, 0x00, 0xFA, 0x24, 0x9000, 11, 0, 0x80, 0x02, 0x20] := by decide

/-- I3, from tick 2 to tick 9: NMI before IRQ. -/
theorem test_nmi_entry :
    ran [0x01FD, 0x01FC, 0x01FB]
        (vectors { State.reset with pc := 0x8001, p := 0x20, totalCycles := 2, pending := ⟨true, true, false⟩ }) =
      [0x00, 0x00, 0x00, 0xFA, 0x24, 0xA000, 9, 0, 0x80, 0x01, 0x20] := by decide

/-- I4, tick 4: a halted CPU counts and ignores IRQ. -/
theorem test_halted_ignores_irq :
    ran [] (vectors { State.reset with
      pc := 0x8002, p := 0x20, totalCycles := 3, halted := true, pending := ⟨false, true, false⟩ }) =
      [0x00, 0x00, 0x00, 0xFD, 0x20, 0x8002, 4, 1] := by decide

/-- I4, from tick 8 to tick 15: NMI wakes the halted CPU. -/
theorem test_halted_wakes_on_nmi :
    ran [0x01FB] (vectors { State.reset with
      pc := 0x8002, p := 0x20, totalCycles := 8, halted := true, pending := ⟨true, true, false⟩ }) =
      [0x00, 0x00, 0x00, 0xFA, 0x24, 0xA000, 15, 0, 0x20] := by decide

/-- I5, tick 9: a pending Reset is serviced in one cycle and restarts the cycle count. -/
theorem test_pending_reset :
    ran [] (vectors { State.reset with
      a := 0x55, x := 0x55, sp := 0x55, p := 0x25, pc := 0x8005, totalCycles := 8, pending := ⟨false, false, true⟩ }) =
      [0x00, 0x00, 0x00, 0xFD, 0x24, 0x8000, 0, 0] := by decide

/-- T2: the host's reset from an arbitrary state. -/
theorem test_host_reset :
    (let t := hostReset (vectors { State.reset with
        a := 0x55, sp := 0x10, p := 0xEF, halted := true, pending := ⟨false, true, false⟩
        ppu := { Ppu.reset with scanline := 100, cycle := 200 } });
      [t.a.toNat, t.sp.toNat, t.p.toNat, t.pc.toNat, t.halted.toNat, t.ppu.status.toNat, t.ppu.scanline, t.ppu.cycle]) =
      [0x00, 0xFD, 0x24, 0x8000, 0, 0x80, 241, 0] := by decide

/-! ### The PPU and DMA (95_test_vectors.md sections 4 and 5) -/

/-- `v`, `t`, `w`, `readBuffer`, `status`, `oamAddr`. -/
def ppuRegs (s : State) : List Nat :=
  [s.ppu.v.toNat, s.ppu.t.toNat, s.ppu.w.toNat, s.ppu.readBuffer.toNat, s.ppu.status.toNat, s.ppu.oamAddr.toNat]

/-- G1: a PPUSTATUS read returns 80 and clears it. -/
theorem test_ppu_status :
    (busRead 0x2002 State.reset).1 = 0x80 ∧ ppuRegs (busRead 0x2002 State.reset).2 = [0, 0, 0, 0, 0, 0] := by decide

/-- G2: the toggle shared by PPUSCROLL and PPUADDR. -/
theorem test_ppu_scroll_addr :
    ppuRegs (busWrite 0x2006 0x3F (busWrite 0x2006 0x34 (busWrite 0x2005 0x12 State.reset))) =
      [0x0034, 0x3F34, 1, 0, 0x80, 0] := by decide

/-- G4: with horizontal mirroring $2400 writes VRAM[000], read back at $3000 one read late. -/
theorem test_ppu_data_nametable :
    (let s := busWrite 0x2007 0x33 { State.reset with ppu := { Ppu.reset with v := 0x2400 } };
      let r := busRead 0x2007 { s with ppu := { s.ppu with v := 0x3000 } };
      s.ppu.vram = [(0x000, 0x33)] ∧ s.ppu.v = 0x2401 ∧ r.1 = 0x00 ∧ r.2.ppu.readBuffer = 0x33 ∧ r.2.ppu.v = 0x3001) := by
  decide

/-- G5 and G6: palette bytes at once, not aliased; the increment of 32 past $3FFF. -/
theorem test_ppu_data_palette :
    (let s := { State.reset with ppu := { Ppu.reset with
        v := 0x3FF0, ctrl := 0x04, palette := [(0x00, 0x0F), (0x10, 0xC5)], vram := [(0x7F0, 0x9A)] } };
      let r := busRead 0x2007 s;
      r.1 = 0xC5 ∧ r.2.ppu.readBuffer = 0x9A ∧ r.2.ppu.v = 0x4010) := by decide

/-- G7: OAMDATA writes increment and wrap the address, reads do not. -/
theorem test_oam_data :
    (let s := busWrite 0x2004 0xBB { State.reset with ppu := { Ppu.reset with oamAddr := 0xFF } };
      s.ppu.oam = [(0xFF, 0xBB)] ∧ s.ppu.oamAddr = 0x00) := by decide

/-- I6 and I7: enabling NMI raises an edge only with VBlank set, and only when newly enabled. -/
theorem test_ppu_ctrl_nmi :
    (busWrite 0x2000 0x80 State.reset).pending.nmi = true ∧
    (busWrite 0x2000 0x80 { State.reset with ppu := { Ppu.reset with status := 0x00 } }).pending.nmi = false ∧
    (busWrite 0x2000 0x80 { State.reset with ppu := { Ppu.reset with ctrl := 0x80 } }).pending.nmi = false := by decide

/-- T5: the edges at (241, 1) and (261, 1). -/
theorem test_vblank :
    (let s := { State.reset with ppu := { Ppu.reset with status := 0x00, cycle := 1, ctrl := 0x80 } };
      let t := ppuCycle s;
      let u := ppuCycle { t with ppu := { t.ppu with scanline := 261, cycle := 1, status := 0xE0 } };
      t.ppu.status = 0x80 ∧ t.pending.nmi = true ∧ u.ppu.status = 0x00 ∧ u.outputs = [.vblankEnded, .vblankStarted]) := by
  decide

/-- R269: (261, 339) is skipped on an odd frame with rendering; R270: the frame wraps. -/
theorem test_frame_end :
    (let at_ (c : Nat) (odd : Bool) (mask : Byte) : List Nat :=
        let q := (ppuCycle { State.reset with ppu := { Ppu.reset with
          scanline := 261, cycle := c, oddFrame := odd, mask := mask } }).ppu;
        [q.scanline, q.cycle, q.frame, q.oddFrame.toNat];
      at_ 338 true 0x08 = [261, 340, 0, 1] ∧ at_ 338 true 0xE7 = [261, 339, 0, 1] ∧
      at_ 338 false 0x10 = [261, 339, 0, 0] ∧ at_ 340 true 0x08 = [0, 0, 1, 0]) := by decide

/-- R221, R22: a due request sets its own bit, a second one of the kind is absorbed, one not yet due stays queued. -/
theorem test_host_requests :
    (let s := deliverInputs { State.reset with
        masterCycle := 5, pending := ⟨false, false, true⟩, inputs := [(6, .nmi), (5, .irq), (2, .irq)] };
      s.pending = ⟨false, true, true⟩ ∧ s.inputs = [(6, .nmi)]) := by decide

/-- R264: 32 bytes 0xFF after cycle 64 of a visible scanline, rendering or not; none of them is kept from cycle 65 on. -/
theorem test_secondary_oam :
    (let s := ppuCycle { State.reset with ppu := { Ppu.reset with scanline := 0, cycle := 64 } };
      secondaryByte s 0 = 0xFF ∧ secondaryByte s 31 = 0xFF ∧ (ppuCycle s).ppu.secondaryOam = []) := by decide

/-- R290, R291: a page of ROM to OAM from index 0 whatever the OAM address; 513 cycles, 514 from an odd cycle count. -/
theorem test_oam_dma :
    (let s := program 0x8000 [] [(0x8000, 0x11), (0x80FF, 0x22)]
        { State.reset with totalCycles := 3, ppu := { Ppu.reset with oamAddr := 0x40 } };
      let t := busWrite 0x4014 0x80 s;
      oamByte t 0 = 0x11 ∧ oamByte t 255 = 0x22 ∧ t.dmaStall = 514 ∧ t.ppu.oamAddr = 0x40 ∧
        (busWrite 0x4014 0x80 { s with totalCycles := 4 }).dmaStall = 513) := by decide +kernel

/-! ### Witnesses: states and operands that meet the hypotheses of each statement -/

/-- A state at $8000 with code there, everything else as after reset. -/
def atCode (bytes : List Byte) : State := program 0x8000 bytes [] State.reset

/-- A quiet boundary, said so that a test can evaluate it. -/
theorem quiet_of (s : State)
    (h : s.timingMode = .ntsc ∧ s.halted = false ∧ s.instructionCycle = 0 ∧ s.penaltyLeft = 0 ∧ s.dmaStall = 0 ∧
      s.inputs = [] ∧ s.pending.nmi = false ∧ (s.pending.irq = false ∨ flag .I s.p = true) ∧ s.pending.reset = false) :
    QuietBoundary s :=
  ⟨h.1, h.2.1, h.2.2.1, h.2.2.2.1, h.2.2.2.2.1, h.2.2.2.2.2.1, h.2.2.2.2.2.2.1, h.2.2.2.2.2.2.2.1, h.2.2.2.2.2.2.2.2⟩

/-- A boundary, said so that a test can evaluate it. -/
theorem boundary_of (s : State)
    (h : s.timingMode = .ntsc ∧ s.halted = false ∧ s.instructionCycle = 0 ∧ s.penaltyLeft = 0 ∧ s.dmaStall = 0) :
    Boundary s :=
  ⟨h.1, h.2.1, h.2.2.1, h.2.2.2.1, h.2.2.2.2⟩

/-- `CodeAt`, said so that a test can evaluate it. -/
theorem codeAt_of (s : State) (i : Instr)
    (h : (List.range (encode i).length).all (fun k =>
      plainMemory s.cart (s.pc + BitVec.ofNat 16 k) &&
        some (busRead (s.pc + BitVec.ofNat 16 k) s).1 == (encode i)[k]?) = true) : CodeAt s i := by
  intro k b hb
  have hk : k < (encode i).length := (List.getElem?_eq_some_iff.mp hb).1
  have := List.all_eq_true.mp h k (List.mem_range.mpr hk)
  rw [hb] at this
  simpa using this

/-- `State.Inv`, said so that a test can evaluate it. -/
theorem inv_of (s : State)
    (h1 : flag .U s.p = true ∧ s.timingMode = .ntsc ∧ (s.penaltyLeft ≤ 2 ∧ (s.penaltyLeft ≠ 0 → s.instructionCycle = 0)) ∧
      (s.halted = true → s.instructionCycle = 0 ∧ s.penaltyLeft = 0) ∧ s.dmaStall ≤ 514 ∧
      s.ram.wf none = true ∧ s.ram.below 0x800 = true)
    (h2 : sequencingOk s.current s.instructionCycle)
    (h3 : s.cart.prgRom.wf prgBlank = true ∧ s.cart.prgRam.wf none = true ∧ s.cart.chrRom.wf none = true ∧
      s.cart.chrRam.wf none = true)
    (h4 : s.ppu.scanline ≤ 261 ∧ s.ppu.cycle ≤ 340 ∧ s.ppu.status &&& 0x1F = 0 ∧ s.ppu.t &&& 0x4000 = 0 ∧
      s.ppu.oddFrame = decide (s.ppu.frame % 2 = 1) ∧
      (s.ppu.vram.wf none = true ∧ s.ppu.vram.below 0x1000 = true) ∧
      (s.ppu.oam.wf none = true ∧ s.ppu.oam.below 0x100 = true) ∧
      (s.ppu.palette.wf none = true ∧ s.ppu.palette.below 0x20 = true) ∧
      s.ppu.secondaryOam.wf none = true ∧ s.ppu.secondaryOam.below 0x20 = true) : s.Inv :=
  ⟨h1.1, h1.2.1, h2, h1.2.2.1, h1.2.2.2.1, h1.2.2.2.2.1, h1.2.2.2.2.2, ⟨h3.1, h3.2.1, h3.2.2.1, h3.2.2.2⟩,
    ⟨h4.1, h4.2.1, h4.2.2.1, h4.2.2.2.1, h4.2.2.2.2.1, h4.2.2.2.2.2.1, h4.2.2.2.2.2.2.1, h4.2.2.2.2.2.2.2.1,
      h4.2.2.2.2.2.2.2.2⟩⟩

/-- DecodeOfEncodeIsTheInstruction: well-formed terms at the ends of the operand ranges. -/
theorem test_witness_decode_of_encode :
    Instr.wf (.lda (.mem (.indy 0xFF))) = true ∧ Instr.wf (.ror (.mem (.absx 0xFFFF))) = true ∧
    Instr.wf (.jmp (.ind 0x0000)) = true ∧ Instr.wf (.bpl 0x80) = true ∧ Instr.wf (.illegal 0xFF) = true := by decide

/-- EncodeOfDecodeIsTheBytes. -/
theorem test_witness_encode_of_decode :
    decode (0xBE :: [0xFF, 0xFF, 0x00]) = .ok (.ldx (.mem (.absy 0xFFFF)), [0x00]) ∧
    decode (0x02 :: []) = .ok (.illegal 0x02, []) ∧ (opEntry 0x02).legal = false := by and_intros <;> rfl

/-- IllegalOpcodesHalt: a quiet boundary at an illegal opcode; the first and the last listed opcode. -/
theorem test_witness_illegal :
    QuietBoundary (atCode [0x02]) ∧ (busRead (atCode [0x02]).pc (counted (atCode [0x02]))).1 ∈ illegalOpcodes ∧
    (0x02 : Byte) ∈ illegalOpcodes ∧ (0xFF : Byte) ∈ illegalOpcodes :=
  ⟨quiet_of _ (by decide), by decide, by decide, by decide⟩

/-- PenaltyIsWhatTheTableAllows: no penalty pending, and a crossing read that charges one. -/
theorem test_witness_penalty :
    State.reset.penaltyLeft = 0 ∧ (opEntry 0xBD).mode ≠ .rel ∧
    penalty (instrOf 0xBD 0xF0 0x02) { State.reset with x := 0x10 } = 1 := by decide

/-- StepRunsTheDecodedInstruction. -/
theorem test_witness_step_decoded :
    QuietBoundary (atCode [0x4C, 0x34, 0x12]) ∧ (opEntry (fetchByte (counted (atCode [0x4C, 0x34, 0x12]))).1).legal = true :=
  ⟨quiet_of _ (by decide), by decide⟩

/-- A three-byte instruction at the end of the address space and one at $0200 in RAM. -/
theorem test_witness_step_at_pc :
    (let s := program 0xFFFD [0x20, 0x00, 0x03] [] State.reset;
      QuietBoundary s ∧ Instr.wf (.jsr 0x0300) = true ∧ (Instr.jsr 0x0300).opcode = some 0x20 ∧
        (opEntry 0x20).legal = true ∧ CodeAt s (.jsr 0x0300)) ∧
    (let s := program 0x0200 [0xEA] [] State.reset;
      QuietBoundary s ∧ Instr.wf .nop = true ∧ Instr.nop.opcode = some 0xEA ∧ (opEntry 0xEA).legal = true ∧
        CodeAt s .nop) :=
  ⟨⟨quiet_of _ (by decide), by decide, by decide, by decide, codeAt_of _ _ (by decide)⟩,
    ⟨quiet_of _ (by decide), by decide, by decide, by decide, codeAt_of _ _ (by decide)⟩⟩

/-- InstructionTakesBasePlusPenaltyCycles: a crossing read with an IRQ pending and masked, and an illegal opcode. -/
theorem test_witness_cycles :
    (let s := { atCode [0xBD, 0xF0, 0x02] with x := 0x10, pending := ⟨false, true, false⟩ };
      QuietBoundary s ∧ Instr.wf (.lda (.mem (.absx 0x02F0))) = true ∧
        (Instr.lda (.mem (.absx 0x02F0))).opcode = some 0xBD ∧ CodeAt s (.lda (.mem (.absx 0x02F0))) ∧
        penalty (.lda (.mem (.absx 0x02F0))) s = 1) ∧
    (QuietBoundary (atCode [0xFF]) ∧ Instr.wf (.illegal 0xFF) = true ∧ (Instr.illegal 0xFF).opcode = some 0xFF ∧
      CodeAt (atCode [0xFF]) (.illegal 0xFF)) :=
  ⟨⟨quiet_of _ (by decide), by decide, by decide, codeAt_of _ _ (by decide), by decide⟩,
    ⟨quiet_of _ (by decide), by decide, by decide, codeAt_of _ _ (by decide)⟩⟩

/-- HaltedCpuWakesOnlyOnNmi: with and without an NMI pending. -/
theorem test_witness_halted :
    (let s := { State.reset with halted := true, pending := ⟨false, true, true⟩ };
      s.timingMode = .ntsc ∧ s.halted = true ∧ s.instructionCycle = 0 ∧ s.penaltyLeft = 0 ∧ s.dmaStall = 0 ∧
        s.inputs = [] ∧ s.pending.nmi = false) ∧
    (let s := { State.reset with halted := true, pending := ⟨true, true, true⟩ };
      s.timingMode = .ntsc ∧ s.halted = true ∧ s.instructionCycle = 0 ∧ s.penaltyLeft = 0 ∧ s.dmaStall = 0 ∧
        s.inputs = [] ∧ s.pending.nmi = true) := by decide

/-- InterruptsAreTakenAtABoundary: NMI over all, and IRQ with I clear. -/
theorem test_witness_interrupts :
    (let s := { State.reset with pending := ⟨true, true, true⟩ };
      Boundary s ∧ s.inputs = [] ∧ s.pending.nmi = true) ∧
    (let s := { State.reset with p := 0x20, pending := ⟨false, true, true⟩ };
      Boundary s ∧ s.inputs = [] ∧ s.pending.nmi = false ∧ s.pending.irq = true ∧ s.p.getLsbD 2 = false) :=
  ⟨⟨boundary_of _ (by decide), by decide⟩, ⟨boundary_of _ (by decide), by decide⟩⟩

/-- InterruptPriorityAtABoundary: an NMI due this very tick over a pending IRQ, an IRQ due with I clear and an NMI one
tick early, Reset behind a masked IRQ, the fetch with nothing pending and with a masked IRQ due. -/
theorem test_witness_priority :
    (let s := { State.reset with masterCycle := 7, inputs := [(7, .nmi)], pending := ⟨false, true, true⟩ };
      Boundary s ∧ (delivered s).pending.nmi = true ∧ (delivered s).inputs = []) ∧
    (let s := { State.reset with p := 0x20, inputs := [(1, .nmi), (0, .irq)] };
      Boundary s ∧ (delivered s).pending.nmi = false ∧ (delivered s).pending.irq = true ∧ s.p.getLsbD 2 = false ∧
        (delivered s).inputs = [(1, .nmi)]) ∧
    (let s := { State.reset with pending := ⟨false, true, true⟩ };
      Boundary s ∧ (delivered s).pending.nmi = false ∧ ((delivered s).pending.irq = false ∨ s.p.getLsbD 2 = true) ∧
        (delivered s).pending.reset = true) ∧
    (let s := { State.reset with inputs := [(0, .irq)] };
      Boundary s ∧ (delivered s).pending.nmi = false ∧ ((delivered s).pending.irq = false ∨ s.p.getLsbD 2 = true) ∧
        (delivered s).pending.reset = false) ∧
    (let s := { State.reset with p := 0x20 };
      Boundary s ∧ (delivered s).pending.nmi = false ∧ ((delivered s).pending.irq = false ∨ s.p.getLsbD 2 = true) ∧
        (delivered s).pending.reset = false) :=
  ⟨⟨boundary_of _ (by decide), by decide⟩, ⟨boundary_of _ (by decide), by decide⟩, ⟨boundary_of _ (by decide), by decide⟩,
    ⟨boundary_of _ (by decide), by decide⟩, ⟨boundary_of _ (by decide), by decide⟩⟩

/-- PendingResetReinitialisesTheCpu: requested before this tick, with I clear and no IRQ. -/
theorem test_witness_pending_reset :
    (let s := { State.reset with p := 0x20, sp := 0x01, inputs := [(0, .reset)] };
      Boundary s ∧ (delivered s).pending.nmi = false ∧ ((delivered s).pending.irq = false ∨ s.p.getLsbD 2 = true) ∧
        (delivered s).pending.reset = true) :=
  ⟨boundary_of _ (by decide), by decide⟩

/-- A state in the middle of a run: a branch penalty left, the longest stall, an odd frame, memories written. -/
def midRun : State :=
  { State.reset with
    pc := 0x0200
    penaltyLeft := 2
    dmaStall := 514
    ram := [(0x000, 0x4C), (0x7FF, 0x01)]
    ppu := { Ppu.reset with
      scanline := 261, cycle := 340, frame := 1, oddFrame := true, status := 0xE0, v := 0x7FFF, t := 0x3FFF
      vram := [(0xFFF, 0x00)], oam := [(0xFF, 0x00)], palette := [(0x1F, 0x3F)], secondaryOam := clearedSecondary } }

/-- A state inside an instruction, one cycle before its effect. -/
def midInstruction : State :=
  { atCode [0xA9, 0x10] with pc := 0x8001, current := some (.instr 0xA9), instructionCycle := 1 }

/-- Whether an outcome is a next state. -/
def answers (o : Out) : Bool :=
  match o with
  | .next _ => true
  | .fault _ => false
  | .refused _ => false

/-- An outcome that is a next state is one for some state. -/
theorem exists_of_answers {o : Out} (h : answers o = true) : ∃ t, o = .next t := by
  cases o with
  | next t => exact ⟨t, rfl⟩
  | fault f => cases f
  | refused r => exact absurd h Bool.false_ne_true

/-- Cycle 1 of an immediate load is inside the instruction. -/
theorem sequencing_of_lda : sequencingOk (some (.instr 0xA9)) 1 :=
  show (opEntry 0xA9).legal = true ∧ 1 ≤ 1 ∧ 1 < (opEntry 0xA9).base from by decide

/-- EveryStepAnswersANextState, EveryStepKeepsTheInvariant: the invariant between instructions and inside one. -/
theorem test_witness_inv : midRun.Inv ∧ midInstruction.Inv :=
  ⟨inv_of _ (by decide) (show (0 : Nat) = 0 from rfl) (by decide) (by decide),
    inv_of _ (by decide) sequencing_of_lda (by decide) (by decide)⟩

/-- EveryStepKeepsTheInvariant: a step from a state with the invariant answers a next state. -/
theorem test_witness_inv_step : midInstruction.Inv ∧ ∃ t, step midInstruction = .next t :=
  ⟨test_witness_inv.2, exists_of_answers (by decide)⟩

/-- PullUndoesPush and RtiUndoesAnEntry: bit 5 of P set, SP at both ends. -/
theorem test_witness_unused_flag :
    flag .U State.reset.p = true ∧ flag .U { State.reset with sp := 0x00, p := 0xEF }.p = true ∧
    { State.reset with sp := 0x00, p := 0xEF }.sp = 0x00 := by decide

/-- InstructionsKeepOtherRegistersAndFlags: an instruction that writes none of the registers, and one that writes each. -/
theorem test_witness_register_frame :
    (∃ t, exec .clc State.reset = .next t) ∧
    writesA .clc = false ∧ writesX .clc = false ∧ writesY .clc = false ∧ writesSp .clc = false ∧ writesPc .clc = false ∧
    (∃ t, exec .rti State.reset = .next t) ∧ writesA .rti = false ∧ writesSp .rti = true ∧ writesPc .rti = true :=
  ⟨⟨_, rfl⟩, by decide, by decide, by decide, by decide, by decide, ⟨_, rfl⟩, by decide, by decide, by decide⟩

/-- InstructionsKeepOtherMemory: a store next to the byte read, at the last RAM address; a cartridge byte and a store into
FlatROM; a cartridge byte of another mapper is left alone by a store to RAM and to the APU/IO block. The one address
stored to is given, and the byte read is left alone by a store there. -/
theorem test_witness_memory_frame :
    (∃ t, exec (.sta (.abs 0x1FFE)) State.reset = .next t) ∧ memoryAt State.reset.cart 0x1FFF ∧
    stored (.sta (.abs 0x1FFE)) State.reset = [0x1FFE] ∧ leavesAlone State.reset.cart 0x1FFE 0x1FFF ∧
    (∃ t, exec (.inc (.abs 0xFFFF)) State.reset = .next t) ∧ memoryAt State.reset.cart 0x8000 ∧
    stored (.inc (.abs 0xFFFF)) State.reset = [0xFFFF] ∧ leavesAlone State.reset.cart 0xFFFF 0x8000 ∧
    (let c := { Cartridge.flatRom with mapper := .other 1 };
      leavesAlone c 0x1FFF 0x4020 ∧ leavesAlone c 0x401F 0xFFFF ∧ leavesAlone c 0x4000 0xFFFF) :=
  ⟨exists_of_answers (by decide), by unfold memoryAt; decide, by decide, by unfold leavesAlone; decide,
    exists_of_answers (by decide), by unfold memoryAt; decide, by decide, by unfold leavesAlone; decide,
    by unfold leavesAlone; decide⟩

/-- PlainAccessesReachNoDevice: a read-modify-write at the last RAM address, a pointer at the top of PRG ROM, and BRK: the
addresses loaded and stored are given, and each is plain memory. -/
theorem test_witness_plain :
    (∃ t, exec (.inc (.abs 0x1FFF)) State.reset = .next t) ∧
    loaded (.inc (.abs 0x1FFF)) State.reset ++ stored (.inc (.abs 0x1FFF)) State.reset = [0x1FFF, 0x1FFF] ∧
    (∃ t, exec (.jmp (.ind 0xFFFF)) State.reset = .next t) ∧
    loaded (.jmp (.ind 0xFFFF)) State.reset ++ stored (.jmp (.ind 0xFFFF)) State.reset = [0xFFFF, 0xFF00] ∧
    (∃ t, exec .brk State.reset = .next t) ∧
    loaded .brk State.reset ++ stored .brk State.reset = [0xFFFE, 0xFFFF, 0x01FD, 0x01FC, 0x01FB] ∧
    [0x1FFF, 0xFFFF, 0xFF00, 0xFFFE, 0x01FD, 0x01FC, 0x01FB].all (plainMemory State.reset.cart) = true :=
  ⟨exists_of_answers (by decide), by decide, exists_of_answers (by decide), by decide, exists_of_answers (by decide),
    by decide, by decide⟩

/-- BusMirroring, ReadsHaveNoEffectOutsideDevices, OutsideWritesChangeNoCoreState: the ends of each address range. -/
theorem test_witness_addresses :
    (0x0000#16).toNat ≤ 0x1FFF ∧ (0x1FFF#16).toNat ≤ 0x1FFF ∧
    (0x2000 ≤ (0x2000#16).toNat ∧ (0x2000#16).toNat ≤ 0x3FFF) ∧ (0x2000 ≤ (0x3FFF#16).toNat ∧ (0x3FFF#16).toNat ≤ 0x3FFF) ∧
    plainMemory Cartridge.flatRom 0x1FFF = true ∧ plainMemory Cartridge.flatRom 0x8000 = true ∧
    ((0x1FFF#16).toNat < 0x2000 ∨ 0x3FFF < (0x1FFF#16).toNat) ∧ ((0x4000#16).toNat < 0x2000 ∨ 0x3FFF < (0x4000#16).toNat) ∧
    (0x4000 ≤ (0x4013#16).toNat ∧ (0x4013#16).toNat ≤ 0x401F ∧ (0x4013#16).toNat ≠ 0x4014) ∧
    (0x4000 ≤ (0x401F#16).toNat ∧ (0x401F#16).toNat ≤ 0x401F ∧ (0x401F#16).toNat ≠ 0x4014) ∧
    (0x4020 ≤ (0x4020#16).toNat ∧ (0x4020#16).toNat < 0x8000 ∧ State.reset.cart.mapper = .flatRom) ∧
    (0x4020 ≤ (0x7FFF#16).toNat ∧ (0x7FFF#16).toNat < 0x8000) ∧ 0x8000 ≤ (0x8000#16).toNat ∧ 0x8000 ≤ (0xFFFF#16).toNat ∧
    0x1FFF < 0x2000 := by decide

/-- A reset state with the PPU at a position. -/
def ppuAt (scanline cycle : Nat) (odd : Bool) (mask : Byte) : State :=
  { State.reset with ppu := { Ppu.reset with scanline := scanline, cycle := cycle, oddFrame := odd, mask := mask } }

/-- VBlankEdgesAndNmi and VisibleScanlineActions: each position clause, and its neighbours. -/
theorem test_witness_ppu_actions :
    ((ppuAt 241 1 false 0).ppu.scanline = 241 ∧ (ppuAt 241 1 false 0).ppu.cycle = 1) ∧
    ((ppuAt 261 1 false 0).ppu.scanline = 261 ∧ (ppuAt 261 1 false 0).ppu.cycle = 1) ∧
    (¬((ppuAt 261 2 false 0).ppu.scanline = 241 ∧ (ppuAt 261 2 false 0).ppu.cycle = 1) ∧
      ¬((ppuAt 261 2 false 0).ppu.scanline = 261 ∧ (ppuAt 261 2 false 0).ppu.cycle = 1)) ∧
    ((ppuAt 239 64 false 0).ppu.scanline ≤ 239 ∧ (ppuAt 239 64 false 0).ppu.cycle = 64 ∧ 31 < 32) ∧
    (ppuAt 239 256 false 0xE7).ppu.mask &&& 0x18 = 0x00 ∧ 239 < (ppuAt 240 256 false 0x18).ppu.scanline ∧
    (ppuAt 0 0 false 0x18).ppu.cycle = 0 ∧ 256 < (ppuAt 0 257 false 0x18).ppu.cycle := by decide

/-- PpuPositionAdvances: the skip, the same cell on an even frame and with rendering off, and the two wraps. -/
theorem test_witness_ppu_position :
    (let q := (ppuAt 261 338 true 0x10).ppu;
      q.scanline ≤ 261 ∧ q.cycle ≤ 340 ∧
        (q.scanline = 261 ∧ q.cycle = 338 ∧ q.oddFrame = true ∧ q.mask &&& 0x18 ≠ 0x00)) ∧
    (let q := (ppuAt 261 338 false 0x18).ppu;
      ¬(q.scanline = 261 ∧ q.cycle = 338 ∧ q.oddFrame = true ∧ q.mask &&& 0x18 ≠ 0x00) ∧ q.cycle < 340) ∧
    (let q := (ppuAt 261 338 true 0xE7).ppu;
      ¬(q.scanline = 261 ∧ q.cycle = 338 ∧ q.oddFrame = true ∧ q.mask &&& 0x18 ≠ 0x00) ∧ q.cycle < 340) ∧
    ((ppuAt 260 340 false 0).ppu.cycle = 340 ∧ (ppuAt 260 340 false 0).ppu.scanline < 261) ∧
    ((ppuAt 261 340 true 0).ppu.cycle = 340 ∧ (ppuAt 261 340 true 0).ppu.scanline = 261) := by decide

/-- FrameHas89342Cycles and OddFrameSkipsOneCycle: any position with rendering off; (0, 0) with rendering on, both parities. -/
theorem test_witness_frames :
    (let q := (ppuAt 261 340 true 0xE7).ppu;
      q.scanline ≤ 261 ∧ q.cycle ≤ 340 ∧ q.mask &&& 0x18 = 0x00) ∧
    (let q := (ppuAt 0 0 true 0x08).ppu;
      q.scanline = 0 ∧ q.cycle = 0 ∧ q.mask &&& 0x18 ≠ 0x00 ∧ q.oddFrame = true) ∧
    (let q := (ppuAt 0 0 false 0x10).ppu;
      q.scanline = 0 ∧ q.cycle = 0 ∧ q.mask &&& 0x18 ≠ 0x00 ∧ q.oddFrame = false) := by decide

/-- ScrollAndAddressShareTheToggle: both values of the toggle. -/
theorem test_witness_toggle :
    State.reset.ppu.w = false ∧ { State.reset with ppu := { Ppu.reset with w := true, t := 0x3FFF } }.ppu.w = true := by decide

/-- PpuDataReadsThroughTheBuffer: the last buffered address, the first palette address, and `v` with bit 14 set. -/
theorem test_witness_ppu_data :
    { Ppu.reset with v := 0x3EFF }.v.toNat % 0x4000 ≤ 0x3EFF ∧ { Ppu.reset with v := 0x4000 }.v.toNat % 0x4000 ≤ 0x3EFF ∧
    0x3F00 ≤ { Ppu.reset with v := 0x3F00 }.v.toNat % 0x4000 ∧ 0x3F00 ≤ { Ppu.reset with v := 0x7FFF }.v.toNat % 0x4000 := by
  decide

/-- NametableAndPaletteMirroring: the ends of the ranges. -/
theorem test_witness_nametables :
    (0x3FFF : Nat) < 0x4000 ∧ (0xEFF : Nat) < 0xF00 ∧ (0xFF : Nat) < 0x100 ∧ (0x1EFF : Nat) < 0x1F00 := by decide

/-- OamDmaCopiesAPageAndStalls: every page of plain memory at its ends: the last of RAM, the first and last of PRG ROM. -/
theorem test_witness_dma_pages :
    (∀ val ∈ ([0x00, 0x1F, 0x80, 0xFF] : List Byte), ∀ k, k < 256 →
      plainMemory State.reset.cart (BitVec.ofNat 16 (val.toNat * 256 + k)) = true) := by
  intro val hv k hk
  have h : val.toNat ∈ [0x00, 0x1F, 0x80, 0xFF] := by
    simp only [List.mem_cons, List.not_mem_nil, or_false] at hv
    rcases hv with rfl | rfl | rfl | rfl <;> decide
  have e : (BitVec.ofNat 16 (val.toNat * 256 + k)).toNat = val.toNat * 256 + k := by
    have := val.isLt
    simp only [BitVec.toNat_ofNat]
    omega
  simp only [List.mem_cons, List.not_mem_nil, or_false] at h
  have hm : State.reset.cart.mapper = .flatRom := rfl
  simp only [plainMemory, e, hm, beq_self_eq_true, Bool.and_true, Bool.or_eq_true, decide_eq_true_eq]
  omega

/-- StalledTickHoldsTheCpu: the last stall cycle, with an NMI due. -/
theorem test_witness_stall :
    (let s := { State.reset with dmaStall := 1, inputs := [(0, .nmi), (1, .irq)] };
      s.timingMode = .ntsc ∧ 0 < s.dmaStall ∧ (delivered s).pending.nmi = true) := by decide

/-- SecondResetChangesNothing: FlatROM's reset is idempotent and it maps the vector; PalIsRefused. -/
theorem test_witness_reset_pal :
    (let s := { State.reset with halted := true, dmaStall := 3 };
      mapperReset (mapperReset s.cart) = mapperReset s.cart ∧
        (mapCpuAddress (hostReset s).cart 0xFFFC).isSome = true ∧ (mapCpuAddress (hostReset s).cart 0xFFFD).isSome = true) ∧
    { State.reset with timingMode := .pal }.timingMode = .pal := by decide

/-- LiveBreakBitIsUnobservable: two states with the invariant that differ in bit 4 of P. -/
theorem test_witness_break :
    midInstruction.Inv ∧ { midInstruction with p := 0x34 }.Inv ∧ SameButBreak midInstruction { midInstruction with p := 0x34 } :=
  ⟨test_witness_inv.2, inv_of _ (by decide) sequencing_of_lda (by decide) (by decide), rfl, by decide⟩

/-- DecimalFlagChangesNoResult: two states that differ in bit 3 of P, and an ADC. -/
theorem test_witness_decimal :
    SameButDecimal State.reset { State.reset with p := 0x2C } ∧ Instr.adc (.imm 0x19) ≠ .php ∧ Instr.adc (.imm 0x19) ≠ .brk :=
  ⟨⟨rfl, by decide⟩, by decide, by decide⟩

end Sys2Proof.Tests
end

section
/-! The status byte P seen through a mask: which flags an update of P can change, and that two status bytes which agree on
a mask still agree on it after the same update. -/

namespace Sys2Proof.Machine

/-- The two status bytes have the same bits where the mask `k` has a 1. -/
def AgreeOn (k p q : Byte) : Prop := p &&& k = q &&& k

theorem agreeOn_iff {k p q : Byte} :
    AgreeOn k p q ↔ ∀ i < 8, k.getLsbD i = true → p.getLsbD i = q.getLsbD i := by
  constructor
  · intro h i _ hk
    have := congrArg (·.getLsbD i) h
    simpa [hk] using this
  · intro h
    refine BitVec.eq_of_getLsbD_eq fun i hi => ?_
    have := h i hi
    cases hk : k.getLsbD i <;> simp_all

@[refl] theorem AgreeOn.refl (k p : Byte) : AgreeOn k p p := rfl

theorem AgreeOn.symm {k p q : Byte} (h : AgreeOn k p q) : AgreeOn k q p := Eq.symm h

theorem AgreeOn.trans {k p q r : Byte} (h : AgreeOn k p q) (h' : AgreeOn k q r) : AgreeOn k p r := Eq.trans h h'

/-- Agreement on a mask is agreement on every smaller one. -/
theorem AgreeOn.mono {k m p q : Byte} (h : AgreeOn k p q) (hm : k &&& m = m) : AgreeOn m p q := by
  unfold AgreeOn at h ⊢
  rw [← hm, ← BitVec.and_assoc, ← BitVec.and_assoc, h]

/-- Agreement outside the bits of `m`, in the form of the frame statement. -/
theorem AgreeOn.xor_and_eq_zero {k p q : Byte} (h : AgreeOn k p q) : (p ^^^ q) &&& k = 0 := by
  rw [agreeOn_iff] at h
  refine BitVec.eq_of_getLsbD_eq fun i hi => ?_
  have := h i hi
  cases hk : k.getLsbD i <;> simp_all

/-! ### Updates of P keep agreement -/

/-- Setting a flag writes the bits of its mask and no other (R15). -/
theorem getLsbD_setFlag {i : Nat} (hi : i < 8) (f : Flag) (b : Bool) (p : Byte) :
    (setFlag f b p).getLsbD i = if f.mask.getLsbD i then b else p.getLsbD i := by
  cases b with
  | true =>
    rw [setFlag, if_pos rfl, BitVec.getLsbD_or]
    cases f.mask.getLsbD i <;> simp
  | false =>
    rw [setFlag, if_neg (by decide), BitVec.getLsbD_and, BitVec.getLsbD_not]
    cases f.mask.getLsbD i <;> simp [hi]

theorem AgreeOn.setFlag {k p q : Byte} (h : AgreeOn k p q) (f : Flag) (b : Bool) :
    AgreeOn k (setFlag f b p) (setFlag f b q) := by
  rw [agreeOn_iff] at h ⊢
  intro i hi hk
  rw [getLsbD_setFlag hi, getLsbD_setFlag hi, h i hi hk]

theorem AgreeOn.setZN {k p q : Byte} (h : AgreeOn k p q) (v : Byte) : AgreeOn k (setZN v p) (setZN v q) :=
  (h.setFlag .N _).setFlag .Z _

theorem AgreeOn.setSumFlags {k p q : Byte} (h : AgreeOn k p q) (r : Sum) :
    AgreeOn k (setSumFlags r p) (setSumFlags r q) :=
  ((h.setFlag .C _).setFlag .V _).setZN _

theorem AgreeOn.setCompare {k p q : Byte} (h : AgreeOn k p q) (r m : Byte) :
    AgreeOn k (setCompare r m p) (setCompare r m q) :=
  (h.setFlag .C _).setZN _

theorem AgreeOn.setBitTest {k p q : Byte} (h : AgreeOn k p q) (a m : Byte) :
    AgreeOn k (setBitTest a m p) (setBitTest a m q) :=
  ((h.setFlag .Z _).setFlag .V _).setFlag .N _

theorem AgreeOn.setShiftFlags {k p q : Byte} (h : AgreeOn k p q) (r : Shifted) :
    AgreeOn k (setShiftFlags r p) (setShiftFlags r q) :=
  (h.setFlag .C _).setZN _

/-- A flag inside the mask reads the same. -/
theorem AgreeOn.flag_eq {k p q : Byte} (h : AgreeOn k p q) {f : Flag} (hf : k &&& f.mask = f.mask) :
    flag f p = flag f q := by
  have e : p &&& f.mask = q &&& f.mask := h.mono hf
  rw [flag, flag, e]

/-- The status bytes that interrupt entry pushes do not show bit 4 (R226). -/
theorem AgreeOn.pushedByInterrupt {p q : Byte} (h : AgreeOn 0xEF p q) : pushedByInterrupt p = pushedByInterrupt q := by
  unfold AgreeOn at h
  rw [Machine.pushedByInterrupt, Machine.pushedByInterrupt, h]

/-- Nor do those that PHP and BRK push, which force it to 1 (R121, R205). -/
theorem AgreeOn.pushedBySoftware {p q : Byte} (h : AgreeOn 0xEF p q) : pushedBySoftware p = pushedBySoftware q := by
  have e (r : Byte) : Machine.pushedBySoftware r = (r &&& 0xEF) ||| 0x30 := by
    unfold Machine.pushedBySoftware
    refine BitVec.eq_of_getLsbD_eq fun i hi => ?_
    interval_cases i <;> simp
  rw [e, e, h]

/-! ### Updates of P leave the other flags -/

theorem setFlag_agreeOn {f : Flag} {k : Byte} (hf : f.mask &&& k = 0) (b : Bool) (p : Byte) :
    AgreeOn k (setFlag f b p) p := by
  rw [agreeOn_iff]
  intro i hi hk
  have hm : f.mask.getLsbD i = false := by simpa [hk] using congrArg (·.getLsbD i) hf
  simp [getLsbD_setFlag hi, hm]

theorem disjoint_of_submask {m n k : Byte} (h : m &&& k = 0) (hn : n &&& m = n) : n &&& k = 0 := by
  rw [← hn, BitVec.and_assoc, h]
  exact BitVec.and_zero

/-- `SetZN` writes Z and N only (R17). -/
theorem setZN_agreeOn {k : Byte} (h : 0x82 &&& k = 0) (v p : Byte) : AgreeOn k (setZN v p) p :=
  (setFlag_agreeOn (disjoint_of_submask h rfl) _ _).trans (setFlag_agreeOn (disjoint_of_submask h rfl) _ p)

/-- ADC and SBC write C, V, Z and N only (R130, R131). -/
theorem setSumFlags_agreeOn {k : Byte} (h : 0xC3 &&& k = 0) (r : Sum) (p : Byte) : AgreeOn k (setSumFlags r p) p :=
  ((setZN_agreeOn (disjoint_of_submask h rfl) _ _).trans (setFlag_agreeOn (disjoint_of_submask h rfl) _ _)).trans
    (setFlag_agreeOn (disjoint_of_submask h rfl) _ p)

/-- A compare writes C, Z and N only (R132 to R134). -/
theorem setCompare_agreeOn {k : Byte} (h : 0x83 &&& k = 0) (r m p : Byte) : AgreeOn k (setCompare r m p) p :=
  (setZN_agreeOn (disjoint_of_submask h rfl) _ _).trans (setFlag_agreeOn (disjoint_of_submask h rfl) _ p)

/-- BIT writes Z, V and N only (R143). -/
theorem setBitTest_agreeOn {k : Byte} (h : 0xC2 &&& k = 0) (a m p : Byte) : AgreeOn k (setBitTest a m p) p :=
  ((setFlag_agreeOn (disjoint_of_submask h rfl) _ _).trans (setFlag_agreeOn (disjoint_of_submask h rfl) _ _)).trans
    (setFlag_agreeOn (disjoint_of_submask h rfl) _ p)

/-- A shift or rotate writes C, Z and N only (R151 to R154). -/
theorem setShiftFlags_agreeOn {k : Byte} (h : 0x83 &&& k = 0) (r : Shifted) (p : Byte) :
    AgreeOn k (setShiftFlags r p) p :=
  (setZN_agreeOn (disjoint_of_submask h rfl) _ _).trans (setFlag_agreeOn (disjoint_of_submask h rfl) _ p)

/-! ### The named accessors against the bits and masks of the statements -/

/-- A flag whose mask is the single bit `i` reads that bit (R15). -/
theorem flag_eq_getLsbD {f : Flag} {i : Nat} (hf : f.mask = BitVec.twoPow 8 i) (hi : i < 8) (p : Byte) :
    flag f p = p.getLsbD i := by
  have hne : BitVec.twoPow 8 i ≠ 0#8 := fun e => by
    simpa [hi] using congrArg (·.getLsbD i) e
  rw [flag, hf, BitVec.and_twoPow]
  cases p.getLsbD i <;> simp [hne]

theorem flag_I_eq (p : Byte) : flag .I p = p.getLsbD 2 := flag_eq_getLsbD (f := .I) rfl (by decide) p

/-- A pulled status has Unused set (R123, R206). -/
theorem flag_U_pulledStatus (b : Byte) : flag .U (pulledStatus b) = true := by
  rw [flag_eq_getLsbD (f := .U) (i := 5) rfl (by decide)]
  simp [pulledStatus]

/-- A byte put into bit 7 of a status byte, and the mask of Z, are the masks of R17. -/
theorem setZN_eq_withZN (v p : Byte) : setZN v p = Spec.withZN v p := by
  refine BitVec.eq_of_getLsbD_eq fun i hi => ?_
  have hz : (if v = 0x00 then 0x02 else 0x00 : Byte).getLsbD i = (decide (i = 1) && (v == 0)) := by
    by_cases hv : v = 0
    · subst hv
      interval_cases i <;> rfl
    · rw [if_neg hv, beq_eq_false_iff_ne.mpr hv]
      simp
  simp only [setZN, getLsbD_setFlag hi, Spec.withZN, BitVec.getLsbD_or, BitVec.getLsbD_and, hz]
  interval_cases i <;> simp [Flag.mask, bitAt]

end Sys2Proof.Machine
end

section
/-! The part of the invariant that belongs to the memories and the devices, and that every bus access and every PPU cycle
keeps it. -/

namespace Sys2Proof.Machine

/-- What `State.Inv` says of the memories, the cartridge, the PPU and the DMA stall. -/
structure DevicesInv (s : State) : Prop where
  stall : s.dmaStall ≤ 514
  ram : s.ram.wf none = true ∧ s.ram.below 0x800 = true
  cart : s.cart.Inv
  ppu : s.ppu.Inv

theorem State.Inv.devices {s : State} (h : s.Inv) : DevicesInv s := ⟨h.stall, h.ram, h.cart, h.ppu⟩

theorem DevicesInv.withPpu {s : State} (h : DevicesInv s) {q : Ppu} (hq : q.Inv) : DevicesInv { s with ppu := q } :=
  { h with ppu := hq }

/-- A write inside a memory keeps its form and size. -/
theorem memory_store {m : Memory} {n k : Nat} (h : m.wf none = true ∧ m.below n = true) (hk : k < n) (v : Byte) :
    (m.store none k v).wf none = true ∧ (m.store none k v).below n = true :=
  ⟨Memory.wf_store h.1 k v, Memory.below_store h.2 hk v⟩

/-! ### The PPU's registers -/

/-- Every nametable address lies inside VRAM (R59). -/
theorem ntIndex_lt (m : Mirroring) (a : Nat) : ntIndex m a < 0x1000 := by
  cases m <;> simp only [ntIndex] <;> omega

/-- A bitwise "and" that clears one more mask keeps a cleared mask cleared. -/
theorem and_and_eq_zero {w : Nat} {x k : BitVec w} (h : x &&& k = 0#w) (m : BitVec w) : x &&& m &&& k = 0#w := by
  rw [BitVec.and_assoc, BitVec.and_comm m, ← BitVec.and_assoc, h, BitVec.zero_and]

/-- Setting bits outside a cleared mask keeps it cleared. -/
theorem or_and_eq_zero {w : Nat} {x y k : BitVec w} (hx : x &&& k = 0#w) (hy : y &&& k = 0#w) :
    (x ||| y) &&& k = 0#w := by
  refine BitVec.eq_of_getLsbD_eq fun i hi => ?_
  have h1 : x.getLsbD i = true → k.getLsbD i = false := by simpa using congrArg (·.getLsbD i) hx
  have h2 : y.getLsbD i = true → k.getLsbD i = false := by simpa using congrArg (·.getLsbD i) hy
  simp only [BitVec.getLsbD_and, BitVec.getLsbD_or, BitVec.getLsbD_zero, Bool.and_eq_false_iff, Bool.or_eq_false_iff]
  grind

theorem DevicesInv.of_onlyPpuDraws {s t : State} (h : DevicesInv s) (o : OnlyPpuDraws s t) (hq : t.ppu.Inv) :
    DevicesInv t := by
  obtain ⟨q, d, rfl⟩ := o
  exact { h with ppu := hq }

theorem readMapped_ppu (w : Option (Nat × MemoryKind)) (s : State) : (readMapped w s).2.ppu = s.ppu := by
  rcases w with _ | ⟨off, kind⟩ <;> rfl

theorem ppuRead_ppu (a : Nat) (s : State) : (ppuRead a s).2.ppu = s.ppu := by
  unfold ppuRead
  split
  · exact readMapped_ppu _ s
  · split <;> rfl

theorem ppuRead_inv (a : Nat) {s : State} (h : s.ppu.Inv) : (ppuRead a s).2.ppu.Inv := by
  rw [ppuRead_ppu]
  exact h

theorem advanceV_inv {s : State} (h : s.ppu.Inv) : (advanceV s).ppu.Inv := { h with }

theorem setReadBuffer_inv (b : Byte) {s : State} (h : s.ppu.Inv) : (setReadBuffer b s).ppu.Inv := { h with }

theorem readPpuData_inv {s : State} (h : s.ppu.Inv) : (readPpuData s).2.ppu.Inv := by
  simp only [readPpuData]
  split
  · exact advanceV_inv (setReadBuffer_inv _ (ppuRead_inv _ h))
  · exact advanceV_inv (setReadBuffer_inv _ (ppuRead_inv _ (ppuRead_inv _ h)))

theorem ppuRegRead_inv (n : Nat) {s : State} (h : s.ppu.Inv) : (ppuRegRead n s).2.ppu.Inv := by
  unfold ppuRegRead
  split
  · exact { h with status_low := and_and_eq_zero h.status_low 0x7F }
  · exact h
  · exact readPpuData_inv h
  · exact h

theorem busRead_devices (a : Word) {s : State} (h : DevicesInv s) : DevicesInv (busRead a s).2 := by
  refine h.of_onlyPpuDraws (busRead_only a s) ?_
  unfold busRead
  split
  · exact h.ppu
  · split
    · exact ppuRegRead_inv _ h.ppu
    · split
      · exact h.ppu
      · rw [mapperCpuRead, readMapped_ppu]
        exact h.ppu

/-! ### Writes -/

theorem cartStore_inv {c : Cartridge} (h : c.Inv) (off : Nat) (v : Byte) (k : MemoryKind) : (cartStore c off v k).Inv := by
  cases k with
  | prgRom => exact h
  | prgRam => exact { h with prgRam := Memory.wf_store h.prgRam off v }
  | chrRom => exact h
  | chrRam => exact { h with chrRam := Memory.wf_store h.chrRam off v }

theorem mapperPpuWrite_devices (a : Nat) (v : Byte) {s : State} (h : DevicesInv s) :
    DevicesInv (mapperPpuWrite a v s) := by
  unfold mapperPpuWrite
  split
  · exact { h with cart := cartStore_inv h.cart _ v .chrRam }
  · exact h
  · exact h

theorem ppuWrite_devices (a : Nat) (v : Byte) {s : State} (h : DevicesInv s) : DevicesInv (ppuWrite a v s) := by
  unfold ppuWrite
  split
  · exact mapperPpuWrite_devices a v h
  · split
    · exact h.withPpu { h.ppu with vram := memory_store h.ppu.vram (ntIndex_lt _ a) v }
    · exact h.withPpu { h.ppu with palette := memory_store h.ppu.palette (Nat.mod_lt a (by decide)) v }

theorem advanceV_devices {s : State} (h : DevicesInv s) : DevicesInv (advanceV s) := h.withPpu (advanceV_inv h.ppu)

theorem writePpuCtrl_devices (v : Byte) {s : State} (h : DevicesInv s) : DevicesInv (writePpuCtrl v s) := by
  simp only [writePpuCtrl]
  split <;> exact { h with ppu := { h.ppu with } }

theorem oamWrite_devices {k : Nat} (hk : k < 0x100) (v : Byte) {s : State} (h : DevicesInv s) :
    DevicesInv (oamWrite k v s) :=
  h.withPpu { h.ppu with oam := memory_store h.ppu.oam hk v }

theorem writePpuScroll_devices (v : Byte) {s : State} (h : DevicesInv s) : DevicesInv (writePpuScroll v s) := by
  unfold writePpuScroll
  split <;> exact h.withPpu { h.ppu with }

/-- A VRAM address whose bit 14 is 0, in the form of the invariant. -/
theorem and_bit14_eq_zero {x : VAddr} (h : x.getLsbD 14 = false) : x &&& 0x4000 = 0 := by
  have := BitVec.and_twoPow x 14
  rwa [h] at this

/-- Neither half of a PPUADDR write sets bit 14 of `t` (R281). -/
theorem writePpuAddr_devices (v : Byte) {s : State} (h : DevicesInv s) : DevicesInv (writePpuAddr v s) := by
  have hlow : v.setWidth 15 &&& 0x4000 = 0 := and_bit14_eq_zero (by simp)
  have hhigh : ((v &&& 0x3F).setWidth 15 <<< 8) &&& 0x4000 = 0 := and_bit14_eq_zero (by simp)
  unfold writePpuAddr
  split
  · exact h.withPpu { h.ppu with t_low := or_and_eq_zero (and_and_eq_zero h.ppu.t_low _) hlow }
  · exact h.withPpu { h.ppu with t_low := or_and_eq_zero (and_and_eq_zero h.ppu.t_low _) hhigh }

theorem ppuRegWrite_devices (n : Nat) (v : Byte) {s : State} (h : DevicesInv s) : DevicesInv (ppuRegWrite n v s) := by
  unfold ppuRegWrite
  split
  · exact writePpuCtrl_devices v h
  · exact h.withPpu { h.ppu with }
  · exact h.withPpu { h.ppu with }
  · exact (oamWrite_devices s.ppu.oamAddr.isLt v h).withPpu { (oamWrite_devices s.ppu.oamAddr.isLt v h).ppu with }
  · exact writePpuScroll_devices v h
  · exact writePpuAddr_devices v h
  · exact advanceV_devices (ppuWrite_devices _ v h)
  · exact h

theorem oamDmaCopy_devices (pg : Byte) {n i : Nat} (hi : i + n ≤ 0x100) {s : State} (h : DevicesInv s) :
    DevicesInv (oamDmaCopy pg n i s) := by
  induction n generalizing i s with
  | zero => exact h
  | succ n ih => exact ih (by omega) (oamWrite_devices (by omega) _ (busRead_devices _ h))

theorem oamDma_devices (v : Byte) {s : State} (h : DevicesInv s) : DevicesInv (oamDma v s) :=
  { oamDmaCopy_devices v (n := 256) (i := 0) (by decide) h with
    stall := by simp only [oamDma]; omega }

theorem mapperWriteRegister_devices (a : Word) (v : Byte) {s : State} (h : DevicesInv s) :
    DevicesInv (mapperWriteRegister a v s) := by
  unfold mapperWriteRegister
  split
  · exact h
  · simp only []
    split <;> exact { h with cart := { h.cart with } }

theorem mapperCpuWrite_devices (a : Word) (v : Byte) {s : State} (h : DevicesInv s) :
    DevicesInv (mapperCpuWrite a v s) := by
  have h' := mapperWriteRegister_devices a v h
  simp only [mapperCpuWrite]
  split
  · exact { h' with cart := cartStore_inv h'.cart _ v _ }
  · exact h'

theorem busWrite_devices (a : Word) (v : Byte) {s : State} (h : DevicesInv s) : DevicesInv (busWrite a v s) := by
  unfold busWrite
  split
  · exact { h with ram := memory_store h.ram (Nat.mod_lt _ (by decide)) v }
  · split
    · exact ppuRegWrite_devices _ v h
    · split
      · exact oamDma_devices v h
      · split
        · exact { h with }
        · exact mapperCpuWrite_devices a v h

/-! ### The PPU's cycles -/

theorem clearedSecondary_wf : Memory.wf none clearedSecondary = true ∧ Memory.below 0x20 clearedSecondary = true := by
  decide

theorem secondaryStep_inv {s : State} (h : s.ppu.Inv) : (secondaryStep s).ppu.Inv := by
  unfold secondaryStep
  split
  · exact { h with secondary := clearedSecondary_wf }
  · split
    · exact { h with secondary := ⟨rfl, rfl⟩ }
    · exact h

/-- The sprite flags are bits 6 and 5 (R272). -/
theorem spriteFlagsStep_inv {s : State} (h : s.ppu.Inv) : (spriteFlagsStep s).ppu.Inv := by
  have hbits : ∀ f : BitVec 2, (f.setWidth 8 <<< 5) &&& 0x1F = (0 : Byte) := by decide
  unfold spriteFlagsStep
  split
  · exact { h with status_low := or_and_eq_zero h.status_low (hbits _) }
  · exact h

theorem vblankStart_inv {s : State} (h : s.ppu.Inv) : (vblankStart s).ppu.Inv := by
  have h' : Ppu.Inv { s.ppu with status := s.ppu.status ||| 0x80 } :=
    { h with status_low := or_and_eq_zero h.status_low rfl }
  simp only [vblankStart]
  split <;> exact h'

theorem ppuAct_inv {s : State} (h : s.ppu.Inv) : (ppuAct s).ppu.Inv := by
  unfold ppuAct
  split
  · exact spriteFlagsStep_inv (secondaryStep_inv h)
  · split
    · exact vblankStart_inv h
    · split
      · exact { h with status_low := and_and_eq_zero h.status_low 0x1F }
      · exact h

/-- The advance stays inside the frame and counts the odd frames (R261, R269, R270). -/
theorem Ppu.advance_inv {q : Ppu} (h : q.Inv) : q.advance.Inv := by
  have hs := h.scanline_le
  have hc := h.cycle_le
  unfold Ppu.advance
  split
  · exact { h with cycle_le := Nat.le_refl 340 }
  · split
    · split
      · have hodd : (!q.oddFrame) = decide ((q.frame + 1) % 2 = 1) := by
          rw [h.odd]
          rcases Nat.mod_two_eq_zero_or_one q.frame with e | e <;> simp [Nat.add_mod, e]
        exact { h with scanline_le := Nat.zero_le _, cycle_le := Nat.zero_le _, odd := hodd }
      · exact { h with scanline_le := by simp only []; omega, cycle_le := Nat.zero_le _ }
    · exact { h with cycle_le := by simp only []; omega }

theorem ppuCycles_inv (n : Nat) {s : State} (h : s.ppu.Inv) : (ppuCycles n s).ppu.Inv := by
  induction n generalizing s with
  | zero => exact h
  | succ n ih => exact ih (Ppu.advance_inv (ppuAct_inv h))

theorem ppuTick_inv {s : State} (h : s.ppu.Inv) : (ppuTick s).ppu.Inv := by
  have hc := ppuCycles_inv Config.ppuPerCpu h
  simp only [ppuTick]
  split
  · exact hc
  · exact (emit_ppu _ _).symm ▸ hc

/-- A master tick's PPU cycles keep the whole invariant. -/
theorem State.Inv.ppuTick {s : State} (h : s.Inv) : (ppuTick s).Inv := by
  have hq := ppuTick_inv h.ppu
  obtain ⟨q, pd, d, o, e⟩ := ppuTick_only s
  rw [e] at hq ⊢
  exact { h with ppu := hq }

end Sys2Proof.Machine
end

section
/-! The stack sequences as equations: what a 16-bit push or pull and a return from an exception do to RAM, SP, P and PC. -/

namespace Sys2Proof.Machine

/-- A 16-bit push stores the high byte at SP and the low byte below it (R14). -/
theorem pushWord_eq (v : Word) (s : State) :
    pushWord v s = { s with
      ram := (s.ram.store none (0x100 + s.sp.toNat) (hi8 v)).store none (0x100 + (s.sp - 1).toNat) (lo8 v)
      sp := s.sp - 2 } := by
  simp only [pushWord, push_eq, BitVec.sub_sub]
  rfl

/-- A 16-bit pull reads the low byte above SP and the high byte above that (R14). -/
theorem pullWord_eq (s : State) :
    pullWord s = (hiLo (ramByte s (0x100 + (s.sp + 2).toNat)) (ramByte s (0x100 + (s.sp + 1).toNat)),
      { s with sp := s.sp + 2 }) := by
  simp only [pullWord, pull_eq, BitVec.add_assoc]
  rfl

/-- RTI pulls P, then PC (R206). -/
theorem returnFromException_eq (s : State) :
    returnFromException s = { s with
      sp := s.sp + 3
      p := pulledStatus (ramByte s (0x100 + (s.sp + 1).toNat))
      pc := hiLo (ramByte s (0x100 + (s.sp + 3).toNat)) (ramByte s (0x100 + (s.sp + 2).toNat)) } := by
  simp only [returnFromException, pull_eq, pullWord_eq, BitVec.add_assoc]
  rfl

end Sys2Proof.Machine
end


section
/-! What the effect step of an instruction can do, said once for all of `exec`: the registers, flags and fields it leaves,
and that the memories and devices keep their invariant. -/

namespace Sys2Proof.Machine

/-- What an operation may write of the CPU: the registers, the bits of P, and whether it may halt. -/
structure Writes where
  a : Bool
  x : Bool
  y : Bool
  sp : Bool
  pc : Bool
  halt : Bool
  mask : Byte

/-- What an instruction may write, by the tables of R10, R12, R18 and R93. -/
def Instr.writes (i : Instr) : Writes where
  a := Spec.writesA i
  x := Spec.writesX i
  y := Spec.writesY i
  sp := Spec.writesSp i
  pc := Spec.writesPc i
  halt := i.mnemonic == .ILLEGAL
  mask := Spec.flagMask i

/-- `t` comes from `s` by operations that write nothing of the CPU but what `w` allows, leave the counters, the sequencing
fields and the host's fields, charge at most two penalty cycles, and keep the invariant of the memories and devices. -/
structure Effect (w : Writes) (s t : State) : Prop where
  a : w.a = false → t.a = s.a
  x : w.x = false → t.x = s.x
  y : w.y = false → t.y = s.y
  sp : w.sp = false → t.sp = s.sp
  pc : w.pc = false → t.pc = s.pc
  p : AgreeOn (~~~w.mask) t.p s.p
  halted : w.halt = false → t.halted = s.halted
  penalty : s.penaltyLeft ≤ 2 → t.penaltyLeft ≤ 2
  instructionCycle : t.instructionCycle = s.instructionCycle
  current : t.current = s.current
  totalCycles : t.totalCycles = s.totalCycles
  masterCycle : t.masterCycle = s.masterCycle
  timingMode : t.timingMode = s.timingMode
  running : t.running = s.running
  memEpoch : t.memEpoch = s.memEpoch
  inputs : t.inputs = s.inputs
  devices : DevicesInv s → DevicesInv t

theorem Effect.refl (w : Writes) (s : State) : Effect w s s where
  a _ := rfl
  x _ := rfl
  y _ := rfl
  sp _ := rfl
  pc _ := rfl
  p := .refl _ _
  halted _ := rfl
  penalty h := h
  instructionCycle := rfl
  current := rfl
  totalCycles := rfl
  masterCycle := rfl
  timingMode := rfl
  running := rfl
  memEpoch := rfl
  inputs := rfl
  devices h := h

theorem Effect.trans {w : Writes} {s t u : State} (h : Effect w s t) (k : Effect w t u) : Effect w s u where
  a e := (k.a e).trans (h.a e)
  x e := (k.x e).trans (h.x e)
  y e := (k.y e).trans (h.y e)
  sp e := (k.sp e).trans (h.sp e)
  pc e := (k.pc e).trans (h.pc e)
  p := k.p.trans h.p
  halted e := (k.halted e).trans (h.halted e)
  penalty e := k.penalty (h.penalty e)
  instructionCycle := k.instructionCycle.trans h.instructionCycle
  current := k.current.trans h.current
  totalCycles := k.totalCycles.trans h.totalCycles
  masterCycle := k.masterCycle.trans h.masterCycle
  timingMode := k.timingMode.trans h.timingMode
  running := k.running.trans h.running
  memEpoch := k.memEpoch.trans h.memEpoch
  inputs := k.inputs.trans h.inputs
  devices e := k.devices (h.devices e)

section
variable {w : Writes}

/-- Of a register that may be written there is nothing to show. -/
theorem of_allowed {b : Bool} {q : Prop} (h : b = true) (h' : b = false) : q :=
  absurd (h.symm.trans h') (by decide)

/-- Where all of P may be written, nothing of P is kept. -/
theorem agreeOn_of_mask_full (hm : w.mask = 0xFF) (p q : Byte) : AgreeOn (~~~w.mask) p q := by
  rw [hm]
  exact BitVec.and_zero.trans BitVec.and_zero.symm

/-! ### Register updates -/

theorem setP_effect {p : Byte} {s : State} (hp : AgreeOn (~~~w.mask) p s.p) : Effect w s { s with p := p } :=
  { Effect.refl w s with p := hp, devices := fun h => { h with } }

theorem putFlag_effect {f : Flag} (hm : w.mask = f.mask) (b : Bool) (s : State) : Effect w s (putFlag f b s) :=
  setP_effect (setFlag_agreeOn (by rw [hm, BitVec.and_not_self]) b s.p)

theorem setCompare_effect (hm : w.mask = 0x83) (r m : Byte) (s : State) :
    Effect w s { s with p := setCompare r m s.p } :=
  setP_effect (setCompare_agreeOn (by rw [hm]; rfl) r m s.p)

theorem setBitTest_effect (hm : w.mask = 0xC2) (a m : Byte) (s : State) :
    Effect w s { s with p := setBitTest a m s.p } :=
  setP_effect (setBitTest_agreeOn (by rw [hm]; rfl) a m s.p)

theorem setPc_effect (hw : w.pc = true) (pc : Word) (s : State) : Effect w s { s with pc := pc } :=
  { Effect.refl w s with
    pc := of_allowed hw
    devices := fun h => { h with } }

theorem setSp_effect (hw : w.sp = true) (sp : Byte) (s : State) : Effect w s { s with sp := sp } :=
  { Effect.refl w s with
    sp := of_allowed hw
    devices := fun h => { h with } }

theorem setAP_effect (hw : w.a = true) {p : Byte} {s : State} (hp : AgreeOn (~~~w.mask) p s.p) (a : Byte) :
    Effect w s { s with a := a, p := p } :=
  { Effect.refl w s with
    a := of_allowed hw
    p := hp
    devices := fun h => { h with } }

theorem loadA_effect (hw : w.a = true) (hm : w.mask = 0x82) (v : Byte) (s : State) : Effect w s (loadA v s) :=
  setAP_effect hw (setZN_agreeOn (by rw [hm]; rfl) v s.p) v

theorem loadX_effect (hw : w.x = true) (hm : w.mask = 0x82) (v : Byte) (s : State) : Effect w s (loadX v s) :=
  { Effect.refl w s with
    x := of_allowed hw
    p := setZN_agreeOn (by rw [hm]; rfl) v s.p
    devices := fun h => { h with } }

theorem loadY_effect (hw : w.y = true) (hm : w.mask = 0x82) (v : Byte) (s : State) : Effect w s (loadY v s) :=
  { Effect.refl w s with
    y := of_allowed hw
    p := setZN_agreeOn (by rw [hm]; rfl) v s.p
    devices := fun h => { h with } }

theorem storeSum_effect (hw : w.a = true) (hm : w.mask = 0xC3) (r : Sum) (s : State) :
    Effect w s (storeSum r s) :=
  setAP_effect hw (setSumFlags_agreeOn (by rw [hm]; rfl) r s.p) r.result

/-! ### Bus accesses and operands -/

theorem effect_of_onlyWrite {s t : State} (o : OnlyWrite s t) (hd : DevicesInv s → DevicesInv t) : Effect w s t := by
  obtain ⟨r, q, pd, c, d, st, u, rfl⟩ := o
  exact { Effect.refl w s with devices := hd }

theorem busRead_effect (a : Word) (s : State) : Effect w s (busRead a s).2 :=
  effect_of_onlyWrite (busRead_only a s).write (busRead_devices a)

theorem busWrite_effect (a : Word) (v : Byte) (s : State) : Effect w s (busWrite a v s) :=
  effect_of_onlyWrite (busWrite_only a v s) (busWrite_devices a v)

theorem busReadWord_effect (a b : Word) (s : State) : Effect w s (busReadWord a b s).2 :=
  (busRead_effect a s).trans (busRead_effect b _)

theorem chargeCrossing_effect (b : Bool) (s : State) : Effect w s (chargeCrossing b s) := by
  unfold chargeCrossing
  split
  · exact { Effect.refl w s with penalty := fun _ => Nat.le_succ 1, devices := fun h => { h with } }
  · exact .refl w s

theorem readMem_effect (m : Mem) (s : State) : Effect w s (readMem m s).2 := by
  simp only [readMem, resolve_state]
  exact (busRead_effect _ s).trans (chargeCrossing_effect _ _)

theorem readSrc_effect (o : Src) (s : State) : Effect w s (readSrc o s).2 := by
  cases o with
  | imm v => exact .refl w s
  | mem m => exact readMem_effect m s

theorem writeMem_effect (m : Mem) (v : Byte) (s : State) : Effect w s (writeMem m v s) := by
  simp only [writeMem, resolve_state]
  exact busWrite_effect _ v s

theorem modifyMem_effect {f : Byte → Byte → Byte × Byte} (hf : ∀ old p, AgreeOn (~~~w.mask) (f old p).2 p)
    (m : Mem) (s : State) : Effect w s (modifyMem m f s) := by
  simp only [modifyMem, resolve_state]
  exact ((busRead_effect _ s).trans (setP_effect (hf _ _))).trans (busWrite_effect _ _ _)

theorem modifyOperand_effect {f : Byte → Byte → Byte × Byte} (hf : ∀ old p, AgreeOn (~~~w.mask) (f old p).2 p)
    {o : Rmw} (hw : o = .acc → w.a = true) (s : State) : Effect w s (modifyOperand o f s) := by
  cases o with
  | acc => exact setAP_effect (hw rfl) (hf _ _) _
  | mem m => exact modifyMem_effect hf m s

theorem shift_effect (hm : w.mask = 0x83) (f : Byte → Bool → Shifted) {o : Rmw} (hw : o = .acc → w.a = true)
    (s : State) : Effect w s (modifyOperand o (shiftStep f) s) :=
  modifyOperand_effect (fun _ p => setShiftFlags_agreeOn (by rw [hm]; rfl) _ p) hw s

theorem count_effect (hm : w.mask = 0x82) (delta : Byte) (m : Mem) (s : State) :
    Effect w s (modifyMem m (countStep delta) s) :=
  modifyMem_effect (fun _ p => setZN_agreeOn (by rw [hm]; rfl) _ p) m s

/-! ### The stack, exceptions, control transfer -/

theorem push_effect (hw : w.sp = true) (v : Byte) (s : State) : Effect w s (push v s) :=
  (busWrite_effect _ v s).trans (setSp_effect hw _ _)

theorem pull_effect (hw : w.sp = true) (s : State) : Effect w s (pull s).2 :=
  (setSp_effect hw _ s).trans (busRead_effect _ _)

theorem pushWord_effect (hw : w.sp = true) (v : Word) (s : State) : Effect w s (pushWord v s) :=
  (push_effect hw _ s).trans (push_effect hw _ _)

theorem pullWord_effect (hw : w.sp = true) (s : State) : Effect w s (pullWord s).2 := by
  rw [pullWord_eq]
  exact setSp_effect hw _ s

theorem loadVector_effect (hw : w.pc = true) (vec : Word) (s : State) : Effect w s (loadVector vec s) :=
  (busReadWord_effect _ _ s).trans (setPc_effect hw _ _)

theorem takeException_effect (hs : w.sp = true) (hpc : w.pc = true) (hm : w.mask = 0x04) (status : Byte)
    (vec : Word) (s : State) : Effect w s (takeException status vec s) := by
  have hpushed : Effect w s (push status (pushWord s.pc s)) := (pushWord_effect hs s.pc s).trans (push_effect hs status _)
  have hflag := hpushed.trans (putFlag_effect (f := .I) hm true _)
  exact hflag.trans (loadVector_effect hpc vec _)

theorem returnFromException_effect (hs : w.sp = true) (hpc : w.pc = true) (hm : w.mask = 0xFF) (s : State) :
    Effect w s (returnFromException s) := by
  rw [returnFromException_eq]
  exact { Effect.refl w s with
    sp := of_allowed hs
    pc := of_allowed hpc
    p := agreeOn_of_mask_full hm _ _
    devices := fun h => { h with } }

theorem jumpTarget_effect (t : Target) (s : State) : Effect w s (jumpTarget t s).2 := by
  cases t with
  | abs v => exact .refl w s
  | ind ptr => exact busReadWord_effect _ _ s

theorem branch_effect (hw : w.pc = true) (cond : Bool) (off : Byte) (s : State) : Effect w s (branch cond off s) := by
  simp only [branch]
  split
  · exact { Effect.refl w s with
      pc := of_allowed hw
      penalty := fun _ => by simp only []; split <;> omega
      devices := fun h => { h with } }
  · exact .refl w s

theorem halt_effect (hw : w.halt = true) (s : State) : Effect w s { s with halted := true } :=
  { Effect.refl w s with
    halted := of_allowed hw
    devices := fun h => { h with } }

end

/-- Every instruction answers a next state, and does nothing to the CPU that the tables of R10, R12 and R18 do not give it
(R207). -/
theorem exec_effect (i : Instr) (s : State) : ∃ t, exec i s = .next t ∧ Effect (Instr.writes i) s t := by
  cases i with
  | lda o => exact ⟨_, rfl, (readSrc_effect o s).trans (loadA_effect rfl rfl _ _)⟩
  | ldx o => exact ⟨_, rfl, (readSrc_effect o s).trans (loadX_effect rfl rfl _ _)⟩
  | ldy o => exact ⟨_, rfl, (readSrc_effect o s).trans (loadY_effect rfl rfl _ _)⟩
  | sta m => exact ⟨_, rfl, writeMem_effect m s.a s⟩
  | stx m => exact ⟨_, rfl, writeMem_effect m s.x s⟩
  | sty m => exact ⟨_, rfl, writeMem_effect m s.y s⟩
  | tax => exact ⟨_, rfl, loadX_effect rfl rfl _ s⟩
  | tay => exact ⟨_, rfl, loadY_effect rfl rfl _ s⟩
  | txa => exact ⟨_, rfl, loadA_effect rfl rfl _ s⟩
  | tya => exact ⟨_, rfl, loadA_effect rfl rfl _ s⟩
  | tsx => exact ⟨_, rfl, loadX_effect rfl rfl _ s⟩
  | txs => exact ⟨_, rfl, setSp_effect rfl _ s⟩
  | pha => exact ⟨_, rfl, push_effect rfl _ s⟩
  | php => exact ⟨_, rfl, push_effect rfl _ s⟩
  | pla => exact ⟨_, rfl, (pull_effect rfl s).trans (loadA_effect rfl rfl _ _)⟩
  | plp => exact ⟨_, rfl, (pull_effect rfl s).trans (setP_effect (agreeOn_of_mask_full rfl _ _))⟩
  | adc o => exact ⟨_, rfl, (readSrc_effect o s).trans (storeSum_effect rfl rfl _ _)⟩
  | sbc o => exact ⟨_, rfl, (readSrc_effect o s).trans (storeSum_effect rfl rfl _ _)⟩
  | cmp o => exact ⟨_, rfl, (readSrc_effect o s).trans (setCompare_effect rfl _ _ _)⟩
  | cpx o => exact ⟨_, rfl, (readSrc_effect o s).trans (setCompare_effect rfl _ _ _)⟩
  | cpy o => exact ⟨_, rfl, (readSrc_effect o s).trans (setCompare_effect rfl _ _ _)⟩
  | and o => exact ⟨_, rfl, (readSrc_effect o s).trans (loadA_effect rfl rfl _ _)⟩
  | ora o => exact ⟨_, rfl, (readSrc_effect o s).trans (loadA_effect rfl rfl _ _)⟩
  | eor o => exact ⟨_, rfl, (readSrc_effect o s).trans (loadA_effect rfl rfl _ _)⟩
  | bit m => exact ⟨_, rfl, (readMem_effect m s).trans (setBitTest_effect rfl _ _ _)⟩
  | asl o => exact ⟨_, rfl, shift_effect rfl _ (by rintro rfl; rfl) s⟩
  | lsr o => exact ⟨_, rfl, shift_effect rfl _ (by rintro rfl; rfl) s⟩
  | rol o => exact ⟨_, rfl, shift_effect rfl _ (by rintro rfl; rfl) s⟩
  | ror o => exact ⟨_, rfl, shift_effect rfl _ (by rintro rfl; rfl) s⟩
  | inc m => exact ⟨_, rfl, count_effect rfl _ m s⟩
  | dec m => exact ⟨_, rfl, count_effect rfl _ m s⟩
  | inx => exact ⟨_, rfl, loadX_effect rfl rfl _ s⟩
  | iny => exact ⟨_, rfl, loadY_effect rfl rfl _ s⟩
  | dex => exact ⟨_, rfl, loadX_effect rfl rfl _ s⟩
  | dey => exact ⟨_, rfl, loadY_effect rfl rfl _ s⟩
  | jmp t => exact ⟨_, rfl, (jumpTarget_effect t s).trans (setPc_effect rfl _ _)⟩
  | jsr v => exact ⟨_, rfl, (pushWord_effect rfl _ s).trans (setPc_effect rfl _ _)⟩
  | rts => exact ⟨_, rfl, (pullWord_effect rfl s).trans (setPc_effect rfl _ _)⟩
  | bcc off => exact ⟨_, rfl, branch_effect rfl _ off s⟩
  | bcs off => exact ⟨_, rfl, branch_effect rfl _ off s⟩
  | beq off => exact ⟨_, rfl, branch_effect rfl _ off s⟩
  | bne off => exact ⟨_, rfl, branch_effect rfl _ off s⟩
  | bmi off => exact ⟨_, rfl, branch_effect rfl _ off s⟩
  | bpl off => exact ⟨_, rfl, branch_effect rfl _ off s⟩
  | bvc off => exact ⟨_, rfl, branch_effect rfl _ off s⟩
  | bvs off => exact ⟨_, rfl, branch_effect rfl _ off s⟩
  | clc => exact ⟨_, rfl, putFlag_effect rfl false s⟩
  | sec => exact ⟨_, rfl, putFlag_effect rfl true s⟩
  | cli => exact ⟨_, rfl, putFlag_effect rfl false s⟩
  | sei => exact ⟨_, rfl, putFlag_effect rfl true s⟩
  | clv => exact ⟨_, rfl, putFlag_effect rfl false s⟩
  | cld => exact ⟨_, rfl, putFlag_effect rfl false s⟩
  | sed => exact ⟨_, rfl, putFlag_effect rfl true s⟩
  | nop => exact ⟨_, rfl, .refl _ s⟩
  | brk => exact ⟨_, rfl, (setPc_effect rfl _ s).trans (takeException_effect rfl rfl rfl _ _ _)⟩
  | rti => exact ⟨_, rfl, returnFromException_effect rfl rfl rfl s⟩
  | illegal op => exact ⟨_, rfl, halt_effect rfl s⟩

theorem effect_of_exec {i : Instr} {s t : State} (h : exec i s = .next t) : Effect (Instr.writes i) s t := by
  obtain ⟨u, hu, e⟩ := exec_effect i s
  rw [h] at hu
  cases hu
  exact e

/-- Settles O36: what `exec_effect` says of the registers, the flags and the counters. -/
theorem instructionsKeepOtherRegistersAndFlags : Obligations.InstructionsKeepOtherRegistersAndFlags := by
  intro i s t h
  have e := effect_of_exec h
  exact ⟨e.a, e.x, e.y, e.sp, e.pc, e.p.xor_and_eq_zero, e.instructionCycle, e.current, e.totalCycles, e.masterCycle,
    e.timingMode, e.running, e.memEpoch, e.inputs⟩

end Sys2Proof.Machine
end

section
/-! The stack gives back what was pushed: PHA and PLA, PHP and PLP, JSR and RTS (R14). -/

namespace Sys2Proof.Machine

/-! ### Words and their bytes -/

theorem toNat_hiLo (hi lo : Byte) : (hiLo hi lo).toNat = hi.toNat * 256 + lo.toNat := by
  rw [hiLo, BitVec.toNat_append, ← Nat.shiftLeft_add_eq_or_of_lt lo.isLt, Nat.shiftLeft_eq]

theorem toNat_lo8 (w : Word) : (lo8 w).toNat = w.toNat % 256 := by
  simp [lo8]

theorem toNat_hi8 (w : Word) : (hi8 w).toNat = w.toNat / 256 := by
  have := w.isLt
  simp only [hi8, BitVec.toNat_setWidth, BitVec.toNat_ushiftRight, Nat.shiftRight_eq_div_pow]
  omega

/-- The bytes of a word make the word (R43). -/
theorem hiLo_hi8_lo8 (w : Word) : hiLo (hi8 w) (lo8 w) = w := by
  apply BitVec.eq_of_toNat_eq
  rw [toNat_hiLo, toNat_hi8, toNat_lo8]
  omega

/-! ### A pull after its push -/

/-- A pull gives back the byte and the SP of the push before it, whatever SP held (R14). -/
theorem pull_push (v : Byte) (s : State) :
    pull (push v s) = (v, { s with ram := s.ram.store none (0x100 + s.sp.toNat) v }) := by
  simp [push_eq, pull_eq, ramByte]

/-- The same for a word, wherever PC has moved in between (R14). -/
theorem pullWord_pushWord (v w : Word) (s : State) :
    (pullWord { pushWord v s with pc := w }).1 = v ∧ (pullWord { pushWord v s with pc := w }).2.sp = s.sp := by
  have hsp : s.sp - 2 + 2 = s.sp := BitVec.sub_add_cancel _ _
  have hsp1 : s.sp - 2 + 1 = s.sp - 1 := by bv_omega
  have hne : (s.sp - 1).toNat ≠ s.sp.toNat := by bv_omega
  simp only [pushWord_eq, pullWord_eq, ramByte, hsp, hsp1, Memory.find_store_none, Nat.add_left_cancel_iff, hne, if_true,
    if_false, Option.getD_some, hiLo_hi8_lo8, and_self]

/-- PLP of the byte PHP pushed (R121, R123). -/
theorem pulledStatus_pushedBySoftware {p : Byte} (h : flag .U p = true) :
    pulledStatus (pushedBySoftware p) = p ||| 0x10 := by
  rw [flag_eq_getLsbD (f := .U) (i := 5) rfl (by decide)] at h
  refine BitVec.eq_of_getLsbD_eq fun i hi => ?_
  interval_cases i <;> simp_all [pulledStatus, pushedBySoftware]

theorem exec_pha (s : State) : exec .pha s = .next (push s.a s) := rfl

theorem exec_php (s : State) : exec .php s = .next (push (pushedBySoftware s.p) s) := rfl

theorem exec_jsr (w : Word) (s : State) : exec (.jsr w) s = .next { pushWord (s.pc - 1) s with pc := w } := rfl

theorem exec_rts (s : State) : exec .rts s = .next { (pullWord s).2 with pc := (pullWord s).1 + 1 } := rfl

theorem exec_pla_push (v : Byte) (s : State) :
    exec .pla (push v s) = .next (loadA v { s with ram := s.ram.store none (0x100 + s.sp.toNat) v }) := by
  have h : exec .pla (push v s) = .next (loadA (pull (push v s)).1 (pull (push v s)).2) := rfl
  rw [h, pull_push]

theorem exec_plp_push (v : Byte) (s : State) :
    exec .plp (push v s) = .next { s with
      ram := s.ram.store none (0x100 + s.sp.toNat) v, p := pulledStatus v } := by
  have h : exec .plp (push v s) = .next { (pull (push v s)).2 with p := pulledStatus (pull (push v s)).1 } := rfl
  rw [h, pull_push]

/-- Settles O20: each pull cancels the push before it. -/
theorem pullUndoesPush : Obligations.PullUndoesPush := by
  intro s
  refine ⟨⟨_, _, exec_pha s, exec_pla_push s.a s, rfl, rfl, setZN_eq_withZN s.a s.p⟩, fun hu => ?_, fun w => ?_⟩
  · exact ⟨_, _, exec_php s, exec_plp_push (pushedBySoftware s.p) s, rfl, pulledStatus_pushedBySoftware hu⟩
  · obtain ⟨hpc, hsp⟩ := pullWord_pushWord (s.pc - 1) w s
    refine ⟨_, _, exec_jsr w s, exec_rts _, rfl, ?_, hsp⟩
    rw [hpc, BitVec.sub_add_cancel]

end Sys2Proof.Machine
end

section
/-! One tick at an instruction boundary: the host's requests are made first, then the latch decides (R221, R228, R301). -/

namespace Sys2Proof.Machine

open Sys2Proof.Spec (counted delivered due cpuReinitialised Boundary)

theorem deliverInputs_eq_delivered (s : State) : deliverInputs s = delivered s := deliverInputs_eq s

/-- A request that stays queued is not due. -/
theorem due_delivered (s : State) (k : InterruptKind) : due (delivered s) k = false := by
  refine List.any_eq_false.mpr fun e he hdue => ?_
  have hlate : s.masterCycle < e.1 := of_decide_eq_true (List.mem_filter.mp he).2
  have hnow : e.1 ≤ s.masterCycle := (of_decide_eq_true hdue).1
  omega

/-- Once the due requests are made there is none left to make. -/
theorem delivered_delivered (s : State) : delivered (delivered s) = delivered s := by
  have hq : (delivered s).inputs.filter (fun e => decide ((delivered s).masterCycle < e.1)) = (delivered s).inputs :=
    List.filter_eq_self.mpr fun e he => (List.mem_filter.mp he).2
  rw [delivered, due_delivered, due_delivered, due_delivered, hq]
  simp only [Bool.or_false]

/-! ### The branches of a tick and of a CPU cycle (R291, R301, R330) -/

theorem tick_of_ntsc {s : State} (h : s.timingMode = .ntsc) :
    tick s = andThen (cpuTick { delivered s with masterCycle := s.masterCycle + 1 }) (fun t => .next (ppuTick t)) := by
  rw [tick, h, deliverInputs_eq_delivered]
  rfl

theorem tick_of_pal {s : State} (h : s.timingMode = .pal) : tick s = .refused .palTiming := by
  rw [tick, h]

/-- A tick is the tick after the host's due requests are made (log entry 9). -/
theorem tick_delivered (s : State) : tick (delivered s) = tick s := by
  cases h : s.timingMode with
  | ntsc => rw [tick_of_ntsc h, tick_of_ntsc (s := delivered s) h, delivered_delivered]; rfl
  | pal => rw [tick_of_pal h, tick_of_pal (s := delivered s) h]

theorem cpuTick_of_stall {s : State} (h : 0 < s.dmaStall) : cpuTick s = .next { s with dmaStall := s.dmaStall - 1 } := by
  rw [cpuTick, if_pos h]

theorem cpuTick_of_no_stall {s : State} (h : s.dmaStall = 0) : cpuTick s = cpuCycle s := by
  rw [cpuTick, if_neg (by omega)]

theorem cpuCycle_of_halted {s : State} (h : s.halted = true) : cpuCycle s = .next
    (if s.pending.nmi then acceptNmi { s with totalCycles := s.totalCycles + 1 }
      else { s with totalCycles := s.totalCycles + 1 }) :=
  if_pos h

theorem cpuCycle_of_penalty {s : State} (hh : s.halted = false) (hp : 0 < s.penaltyLeft) :
    cpuCycle s = .next { s with totalCycles := s.totalCycles + 1, penaltyLeft := s.penaltyLeft - 1 } :=
  (if_neg (by simp [hh])).trans (if_pos hp)

theorem cpuCycle_of_boundary {s : State} (hh : s.halted = false) (hp : s.penaltyLeft = 0)
    (hc : s.instructionCycle = 0) : cpuCycle s = boundaryCycle { s with totalCycles := s.totalCycles + 1 } :=
  ((if_neg (by simp [hh])).trans (if_neg (Nat.not_lt.mpr (Nat.le_of_eq hp)))).trans (if_pos hc)

theorem cpuCycle_of_inner {s : State} (hh : s.halted = false) (hp : s.penaltyLeft = 0)
    (hc : s.instructionCycle ≠ 0) : cpuCycle s = innerCycle { s with totalCycles := s.totalCycles + 1 } :=
  ((if_neg (by simp [hh])).trans (if_neg (Nat.not_lt.mpr (Nat.le_of_eq hp)))).trans (if_neg hc)

/-- The state with one more cycle of the instruction or entry in progress counted (R333). -/
def nextCycle (s : State) : State := { s with instructionCycle := s.instructionCycle + 1 }

theorem innerCycle_of_none {s : State} (h : s.current = none) : innerCycle s = .next (nextCycle s) := by
  simp only [innerCycle, h, nextCycle]

/-- A cycle of an interrupt entry: the last one runs the exception sequence (R226, R337). -/
def entryCycle (vec : Word) (s : State) : Out :=
  if s.instructionCycle + 1 = entryCycles then
    .next { takeException (pushedByInterrupt s.p) vec (nextCycle s) with instructionCycle := 0, current := none }
  else .next (nextCycle s)

theorem innerCycle_of_nmi {s : State} (h : s.current = some .nmi) : innerCycle s = entryCycle nmiVector s := by
  simp only [innerCycle, h, entryCycle, nextCycle, nmiEntry]

theorem innerCycle_of_irq {s : State} (h : s.current = some .irq) : innerCycle s = entryCycle irqVector s := by
  simp only [innerCycle, h, entryCycle, nextCycle, irqEntry]

theorem innerCycle_of_instr {s : State} {op : Byte} (h : s.current = some (.instr op)) : innerCycle s =
    if s.instructionCycle + 1 = (opEntry op).base then effectStep op (nextCycle s) else .next (nextCycle s) := by
  simp only [innerCycle, h, nextCycle]

/-- At a boundary the CPU's part of the tick is the boundary cycle (R330, R331). -/
theorem tick_at_boundary {s : State} (h : Boundary s) :
    tick s = andThen (boundaryCycle (counted (delivered s))) (fun t => .next (ppuTick t)) := by
  rw [tick_of_ntsc h.ntsc, cpuTick_of_no_stall (s := { delivered s with masterCycle := s.masterCycle + 1 }) h.stall,
    cpuCycle_of_boundary (s := { delivered s with masterCycle := s.masterCycle + 1 }) h.notHalted h.penalty h.cycle]
  rfl

/-! ### The four outcomes of a boundary cycle (R228) -/

theorem boundaryCycle_nmi {s : State} (h : s.pending.nmi = true) : boundaryCycle s = .next (acceptNmi s) := by
  rw [boundaryCycle, if_pos h]

/-- A CPU that is not halted is not woken. -/
theorem acceptNmi_of_not_halted {s : State} (h : s.halted = false) : acceptNmi s = { s with
    pending := { s.pending with nmi := false }, current := some .nmi, instructionCycle := 1 } := by
  cases s
  cases h
  rfl

theorem boundaryCycle_irq {s : State} (hn : s.pending.nmi = false) (hi : s.pending.irq = true)
    (hp : s.p.getLsbD 2 = false) : boundaryCycle s = .next (acceptIrq s) := by
  rw [← flag_I_eq] at hp
  simp [boundaryCycle, hn, hi, hp]

/-- With no NMI and no eligible IRQ. -/
theorem boundaryCycle_masked {s : State} (hn : s.pending.nmi = false) (hi : s.pending.irq = false ∨ s.p.getLsbD 2 = true) :
    boundaryCycle s = if s.pending.reset then .next (cpuReset s) else fetchCycle s := by
  have hm : (s.pending.irq && !flag .I s.p) = false := by
    rw [flag_I_eq]
    rcases hi with h | h <;> simp [h]
  simp [boundaryCycle, hn, hm]

theorem fetchCycle_eq (s : State) : fetchCycle s = .next
    (if (opEntry (busRead s.pc s).1).legal then
      { (busRead s.pc s).2 with
        pc := s.pc + 1, current := some (.instr (busRead s.pc s).1), instructionCycle := 1 }
    else { (busRead s.pc s).2 with pc := s.pc + 1, halted := true }) := by
  cases hl : (opEntry (busRead s.pc s).1).legal with
  | true => simp only [fetchCycle, fetchByte, hl, if_true]
  | false =>
    simp only [fetchCycle, fetchByte, hl, if_false, Bool.false_eq_true]
    rfl

theorem hiLo_eq_ofNat (hi lo : Byte) : hiLo hi lo = BitVec.ofNat 16 (lo.toNat + 256 * hi.toNat) := by
  apply BitVec.eq_of_toNat_eq
  have := hi.isLt
  have := lo.isLt
  rw [toNat_hiLo, BitVec.toNat_ofNat]
  omega

/-- The CPU reset as the statements write it (R227, R320). -/
theorem cpuReset_eq (s : State) : cpuReset s = cpuReinitialised s := by
  simp only [cpuReset, loadVector, busReadWord, hiLo_eq_ofNat]
  rfl

/-- Settles O11: `tick_at_boundary` and the outcomes of the boundary cycle, by the latch. -/
theorem interruptPriorityAtABoundary : Obligations.InterruptPriorityAtABoundary := by
  intro s
  refine ⟨fun k => by rw [requestInterrupt, Pending.request_eq], (tick_delivered s).symm, fun hb => ?_⟩
  rw [tick_at_boundary hb]
  refine ⟨fun hn => ?_, fun hn hi hp => ?_, fun hn hi hr => ?_, fun hn hi hr => ?_⟩
  · rw [boundaryCycle_nmi (s := counted (delivered s)) hn,
      acceptNmi_of_not_halted (s := counted (delivered s)) hb.notHalted]
    rfl
  · rw [boundaryCycle_irq (s := counted (delivered s)) hn hi hp]
    rfl
  · rw [boundaryCycle_masked (s := counted (delivered s)) hn hi, ← cpuReset_eq]
    rw [show (counted (delivered s)).pending.reset = true from hr]
    rfl
  · rw [boundaryCycle_masked (s := counted (delivered s)) hn hi, fetchCycle_eq]
    rw [show (counted (delivered s)).pending.reset = false from hr]
    rfl

end Sys2Proof.Machine
end

section
/-! The invariant through a CPU cycle, a tick and a step. Each tick from an unsettled state also lowers a rank, so that the
run to the next boundary ends (R331). -/

namespace Sys2Proof.Machine

/-- What `State.Inv` says besides the sequencing of the CPU. -/
structure CoreInv (s : State) : Prop where
  unused : flag .U s.p = true
  ntsc : s.timingMode = .ntsc
  devices : DevicesInv s

theorem State.Inv.core {s : State} (h : s.Inv) : CoreInv s := ⟨h.unused, h.ntsc, h.devices⟩

theorem CoreInv.inv {s : State} (h : CoreInv s) (hseq : sequencingOk s.current s.instructionCycle)
    (hpenalty : s.penaltyLeft ≤ 2 ∧ (s.penaltyLeft ≠ 0 → s.instructionCycle = 0))
    (hhalt : s.halted = true → s.instructionCycle = 0 ∧ s.penaltyLeft = 0) : s.Inv :=
  ⟨h.unused, h.ntsc, hseq, hpenalty, hhalt, h.devices.stall, h.devices.ram, h.devices.cart, h.devices.ppu⟩

/-- The invariant between two instructions. -/
theorem CoreInv.inv_between {s : State} (h : CoreInv s) (hk : s.instructionCycle = 0) (hc : s.current = none)
    (hpenalty : s.penaltyLeft ≤ 2) (hhalt : s.halted = true → s.penaltyLeft = 0) : s.Inv :=
  h.inv (by rw [hc]; exact hk) ⟨hpenalty, fun _ => hk⟩ fun e => ⟨hk, hhalt e⟩

/-- The invariant inside an instruction or an interrupt entry. -/
theorem CoreInv.inv_inside {s : State} (h : CoreInv s) (hseq : sequencingOk s.current s.instructionCycle)
    (hpenalty : s.penaltyLeft = 0) (hhalt : s.halted = false) : s.Inv :=
  h.inv hseq ⟨by omega, fun e => absurd hpenalty e⟩ fun e => absurd (hhalt.symm.trans e) (by decide)

/-- Settles O13: the reset state is between two instructions, and its memories list nothing. -/
theorem invariantHoldsAtReset : Obligations.InvariantHoldsAtReset :=
  have hppu : Ppu.reset.Inv := ⟨by decide, by decide, rfl, rfl, rfl, ⟨rfl, rfl⟩, ⟨rfl, rfl⟩, ⟨rfl, rfl⟩, ⟨rfl, rfl⟩⟩
  have hcore : CoreInv State.reset := ⟨rfl, rfl, ⟨by decide, ⟨rfl, rfl⟩, ⟨rfl, rfl, rfl, rfl⟩, hppu⟩⟩
  hcore.inv_between rfl rfl (by decide) fun h => absurd h (by decide)

/-! ### Operations of the CPU -/

/-- An operation that leaves bit 5 of P keeps the core of the invariant. -/
theorem Effect.core {w : Writes} {s t : State} (e : Effect w s t) (hm : ~~~w.mask &&& 0x20 = 0x20) (h : CoreInv s) :
    CoreInv t :=
  ⟨(e.p.flag_eq (f := .U) hm).trans h.unused, e.timingMode.trans h.ntsc, e.devices h.devices⟩

/-- No instruction but PLP and RTI writes bit 5 of P (R18). -/
theorem flagMask_unused {i : Instr} (hplp : i ≠ .plp) (hrti : i ≠ .rti) : ~~~Spec.flagMask i &&& 0x20 = 0x20 := by
  cases i with
  | plp => exact absurd rfl hplp
  | rti => exact absurd rfl hrti
  | _ =>
    rw [Spec.flagMask]
    rfl

theorem exec_core {i : Instr} {s t : State} (h : exec i s = .next t) (hs : CoreInv s) : CoreInv t := by
  have e := effect_of_exec h
  by_cases hplp : i = .plp
  · subst hplp
    cases h
    exact ⟨flag_U_pulledStatus _, e.timingMode.trans hs.ntsc, e.devices hs.devices⟩
  by_cases hrti : i = .rti
  · subst hrti
    have ht : returnFromException s = t := Host.Outcome.next.inj h
    refine ⟨?_, e.timingMode.trans hs.ntsc, e.devices hs.devices⟩
    rw [← ht, returnFromException_eq]
    exact flag_U_pulledStatus _
  exact e.core (flagMask_unused hplp hrti) hs

/-- What a fetch may write: PC alone (R12). -/
def Writes.pcOnly : Writes := ⟨false, false, false, false, true, false, 0x00⟩

theorem fetchByte_effect (s : State) : Effect .pcOnly s (fetchByte s).2 :=
  (busRead_effect s.pc s).trans (setPc_effect rfl _ _)

theorem fetchOperands_effect (n : Nat) (s : State) : Effect .pcOnly s (fetchOperands n s).2 := by
  unfold fetchOperands
  split
  · exact .refl _ s
  · exact fetchByte_effect s
  · exact (fetchByte_effect s).trans (fetchByte_effect _)

/-- Only an illegal opcode halts, and it charges no penalty (R93). -/
theorem exec_halted {i : Instr} {s t : State} (h : exec i s = .next t) (hh : s.halted = false) (ht : t.halted = true) :
    t.penaltyLeft = s.penaltyLeft := by
  cases hi : i.mnemonic == .ILLEGAL with
  | false => exact absurd ((effect_of_exec h).halted hi ▸ ht) (by simp [hh])
  | true =>
    cases i with
    | illegal op => cases h; rfl
    | _ => cases hi

/-- Every legal entry takes 2 to 7 cycles (R92). -/
theorem base_of_legal (op : Byte) (h : (opEntry op).legal = true) : 2 ≤ (opEntry op).base ∧ (opEntry op).base ≤ 7 := by
  have hall : ∀ e ∈ opcodeTable, e.legal = true → 2 ≤ e.base ∧ e.base ≤ 7 := by decide +kernel
  rcases Nat.lt_or_ge op.toNat opcodeTable.length with hlt | hge
  · refine hall (opEntry op) ?_ h
    rw [opEntry, List.getD_eq_getElem _ _ hlt]
    exact List.getElem_mem hlt
  · rw [opEntry, List.getD_eq_default _ _ hge] at h
    exact absurd h (by decide)

/-! ### The rank of a state -/

/-- A bound on the ticks left before the machine is settled: the stall, the penalty, and, inside an instruction or an
entry, more than the rest of it and the stall and penalty it may cause. -/
def rank (s : State) : Nat := s.dmaStall + s.penaltyLeft + if s.instructionCycle = 0 then 0 else 600 - s.instructionCycle

/-- The outcome is a next state that has the invariant and a rank below `b`. -/
def AnswersBelow (b : Nat) (o : Out) : Prop := ∃ t, o = .next t ∧ t.Inv ∧ rank t < b

/-- A cycle that ends between two instructions leaves at most a stall and a penalty. -/
theorem answers_between {t : State} (h : CoreInv t) (hk : t.instructionCycle = 0) (hc : t.current = none)
    (hpenalty : t.penaltyLeft ≤ 2) (hhalt : t.halted = true → t.penaltyLeft = 0) : AnswersBelow 517 (.next t) := by
  refine ⟨t, rfl, h.inv_between hk hc hpenalty hhalt, ?_⟩
  have := h.devices.stall
  simp only [rank, hk, if_true]
  omega

/-- A cycle that ends at cycle `k` of an instruction or an entry. -/
theorem answers_inside {t : State} (h : CoreInv t) (hseq : sequencingOk t.current t.instructionCycle)
    (hk : 0 < t.instructionCycle) (hk' : t.instructionCycle < 600) (hpenalty : t.penaltyLeft = 0)
    (hstall : t.dmaStall = 0) (hhalt : t.halted = false) : AnswersBelow (601 - t.instructionCycle) (.next t) := by
  refine ⟨t, rfl, h.inv_inside hseq hpenalty hhalt, ?_⟩
  rw [rank, hpenalty, hstall, if_neg (by omega)]
  omega

theorem AnswersBelow.mono {b c : Nat} {o : Out} (h : AnswersBelow b o) (hbc : b ≤ c) : AnswersBelow c o := by
  obtain ⟨t, ho, hinv, hr⟩ := h
  exact ⟨t, ho, hinv, by omega⟩

/-! ### The cycles that finish something -/

/-- The effect step of an instruction ends between two instructions (R334). -/
theorem effectStep_answers (op : Byte) {s : State} (h : CoreInv s) (hhalt : s.halted = false) :
    AnswersBelow 517 (effectStep op s) := by
  have hf := fetchOperands_effect (opEntry op).mode.operandBytes s
  generalize hr : fetchOperands (opEntry op).mode.operandBytes s = r at hf
  have hu : CoreInv { r.2 with instructionCycle := 0, current := none, penaltyLeft := 0 } :=
    ⟨(hf.core rfl h).unused, (hf.core rfl h).ntsc, { (hf.core rfl h).devices with }⟩
  obtain ⟨t, ht, e⟩ := exec_effect (instrOf op r.1.1 r.1.2)
    { r.2 with instructionCycle := 0, current := none, penaltyLeft := 0 }
  rw [effectStep, hr, ht]
  exact answers_between (exec_core ht hu) e.instructionCycle e.current (e.penalty (Nat.zero_le 2))
    (exec_halted ht ((hf.halted rfl).trans hhalt))

/-- The entry sequence of an interrupt ends between two instructions (R226, R337). -/
theorem entry_answers (status : Byte) (vec : Word) {s : State} (h : CoreInv s) (hpenalty : s.penaltyLeft = 0)
    (hhalt : s.halted = false) : AnswersBelow 517
      (.next { takeException status vec s with instructionCycle := 0, current := none }) := by
  have e : Effect (Instr.writes .brk) s (takeException status vec s) := takeException_effect rfl rfl rfl status vec s
  have ht := e.core rfl h
  have hh : (takeException status vec s).halted = false := (e.halted rfl).trans hhalt
  exact answers_between ⟨ht.unused, ht.ntsc, { ht.devices with }⟩ rfl rfl (e.penalty (by omega))
    fun hb => absurd (hh.symm.trans hb) (by decide)

/-- The CPU reset ends between two instructions (R227). -/
theorem cpuReset_answers {s : State} (h : CoreInv s) : AnswersBelow 517 (.next (cpuReset s)) := by
  unfold cpuReset
  generalize hu : ({ s with
    a := 0x00, x := 0x00, y := 0x00, sp := 0xFD, p := 0x24
    halted := false, pending := Pending.none
    instructionCycle := 0, current := none, penaltyLeft := 0, totalCycles := 0 } : State) = u
  have hcore : CoreInv u := hu ▸ ⟨show flag .U 0x24 = true by decide, h.ntsc, { h.devices with }⟩
  have e : Effect .pcOnly u (loadVector resetVector u) := loadVector_effect rfl resetVector u
  have hk : u.instructionCycle = 0 := hu ▸ rfl
  have hc : u.current = none := hu ▸ rfl
  have hp : u.penaltyLeft = 0 := hu ▸ rfl
  have hh : (loadVector resetVector u).halted = false := (e.halted rfl).trans (hu ▸ rfl)
  exact answers_between (e.core rfl hcore) (e.instructionCycle.trans hk) (e.current.trans hc)
    (e.penalty (by omega)) fun hb => absurd (hh.symm.trans hb) (by decide)

/-- The sequencing fields of a state with the invariant at an instruction cycle 0 and past it (R19). -/
theorem State.Inv.current_none {s : State} (h : s.Inv) (hk : s.instructionCycle = 0) : s.current = none := by
  have hs := h.sequencing
  rw [hk] at hs
  cases hc : s.current with
  | none => rfl
  | some c =>
    rw [hc] at hs
    cases c with
    | instr op => exact absurd hs.2.1 (by decide)
    | nmi => exact absurd hs.1 (by decide)
    | irq => exact absurd hs.1 (by decide)

/-- A fetch begins an instruction, or halts (R93, R332). -/
theorem fetchCycle_answers {s : State} (h : s.Inv) (hk : s.instructionCycle = 0) (hpenalty : s.penaltyLeft = 0)
    (hstall : s.dmaStall = 0) (hhalt : s.halted = false) : AnswersBelow 600 (fetchCycle s) := by
  have e : Effect .pcOnly s (busRead s.pc s).2 := busRead_effect s.pc s
  have hcore := e.core rfl h.core
  obtain ⟨q, d, hr⟩ := busRead_only s.pc s
  rw [fetchCycle_eq]
  rw [hr] at hcore ⊢
  cases hl : (opEntry (busRead s.pc s).1).legal with
  | true =>
    have hbase := base_of_legal _ hl
    have h1 : 1 < 600 := by decide
    rw [if_pos rfl]
    exact answers_inside (t := { s with
        ppu := q, draws := d, pc := s.pc + 1, current := some (.instr (busRead s.pc s).1), instructionCycle := 1 })
      ⟨hcore.unused, hcore.ntsc, { hcore.devices with }⟩ ⟨hl, Nat.le_refl 1, hbase.1⟩ Nat.one_pos h1 hpenalty
      hstall hhalt
  | false =>
    rw [if_neg (by decide)]
    refine AnswersBelow.mono (b := 517) ?_ (by decide)
    exact answers_between ⟨hcore.unused, hcore.ntsc, { hcore.devices with }⟩ hk (h.current_none hk) h.penalty.1
      fun _ => hpenalty

/-- The core of the invariant does not speak of the latch, the sequencing fields or the counters. -/
theorem CoreInv.congr {s t : State} (h : CoreInv s) (hp : t.p = s.p) (hm : t.timingMode = s.timingMode)
    (hst : t.dmaStall = s.dmaStall) (hr : t.ram = s.ram) (hc : t.cart = s.cart) (hq : t.ppu = s.ppu) : CoreInv t :=
  ⟨hp ▸ h.unused, hm ▸ h.ntsc, ⟨hst ▸ h.devices.stall, hr ▸ h.devices.ram, hc ▸ h.devices.cart, hq ▸ h.devices.ppu⟩⟩

/-- Cycle 1 of an NMI entry (R225, R337). -/
theorem acceptNmi_answers {s : State} (h : s.Inv) (hpenalty : s.penaltyLeft = 0) (hstall : s.dmaStall = 0) :
    AnswersBelow 600 (.next (acceptNmi s)) :=
  answers_inside (h.core.congr rfl rfl rfl rfl rfl rfl) (show sequencingOk (some .nmi) 1 from ⟨by decide, by decide⟩)
    Nat.one_pos (show 1 < 600 by decide) hpenalty hstall rfl

/-- An instruction boundary (R228). -/
theorem boundaryCycle_answers {s : State} (h : s.Inv) (hk : s.instructionCycle = 0) (hpenalty : s.penaltyLeft = 0)
    (hstall : s.dmaStall = 0) (hhalt : s.halted = false) : AnswersBelow 600 (boundaryCycle s) := by
  unfold boundaryCycle
  split
  · exact acceptNmi_answers h hpenalty hstall
  · split
    · exact answers_inside (h.core.congr rfl rfl rfl rfl rfl rfl)
        (show sequencingOk (some .irq) 1 from ⟨by decide, by decide⟩) Nat.one_pos (show 1 < 600 by decide) hpenalty hstall
        hhalt
    · split
      · exact (cpuReset_answers h.core).mono (by decide)
      · exact fetchCycle_answers h hk hpenalty hstall hhalt

/-! ### The cycles inside an instruction or an entry -/

/-- Inside an instruction or an entry the CPU is not halted and no penalty is left (R19, R93). -/
theorem State.Inv.inside {s : State} (h : s.Inv) (hk : s.instructionCycle ≠ 0) :
    s.halted = false ∧ s.penaltyLeft = 0 := by
  constructor
  · cases hh : s.halted with
    | false => rfl
    | true => exact absurd (h.halt hh).1 hk
  · by_contra hp
    exact hk (h.penalty.2 hp)

/-- One more cycle of the instruction or entry in progress (R333). -/
theorem advance_answers {s : State} (h : s.Inv) (hk : s.instructionCycle ≠ 0) (hstall : s.dmaStall = 0)
    (hseq : sequencingOk s.current (s.instructionCycle + 1)) (hk' : s.instructionCycle < 7) :
    AnswersBelow (rank s) (.next (nextCycle s)) := by
  obtain ⟨hhalt, hpenalty⟩ := h.inside hk
  refine AnswersBelow.mono (answers_inside (h.core.congr rfl rfl rfl rfl rfl rfl) hseq (Nat.succ_pos _)
    (show s.instructionCycle + 1 < 600 by omega) hpenalty hstall hhalt) ?_
  have hn : (nextCycle s).instructionCycle = s.instructionCycle + 1 := rfl
  simp only [rank, if_neg hk]
  omega

/-- Inside an instruction or an entry more ticks are left than a stall and a penalty take. -/
theorem rank_inside {s : State} (hk : s.instructionCycle ≠ 0) (hk' : s.instructionCycle < 7) : 517 ≤ rank s := by
  simp only [rank, if_neg hk]
  omega

theorem entryCycle_answers (vec : Word) {s : State} (h : s.Inv) (hk : s.instructionCycle ≠ 0) (hstall : s.dmaStall = 0)
    (hlt : s.instructionCycle < entryCycles)
    (hseq : s.instructionCycle + 1 < entryCycles → sequencingOk s.current (s.instructionCycle + 1)) :
    AnswersBelow (rank s) (entryCycle vec s) := by
  obtain ⟨hhalt, hpenalty⟩ := h.inside hk
  have hcore : CoreInv (nextCycle s) := h.core.congr rfl rfl rfl rfl rfl rfl
  unfold entryCycle
  split
  next => exact (entry_answers _ vec hcore hpenalty hhalt).mono (rank_inside hk hlt)
  next hne => exact advance_answers h hk hstall (hseq (Nat.lt_of_le_of_ne hlt hne)) hlt

theorem innerCycle_answers {s : State} (h : s.Inv) (hk : s.instructionCycle ≠ 0) (hstall : s.dmaStall = 0) :
    AnswersBelow (rank s) (innerCycle s) := by
  obtain ⟨hhalt, -⟩ := h.inside hk
  have hseq := h.sequencing
  have hcore : CoreInv (nextCycle s) := h.core.congr rfl rfl rfl rfl rfl rfl
  cases hc : s.current with
  | none =>
    rw [hc] at hseq
    exact absurd hseq hk
  | some c =>
    rw [hc] at hseq
    cases c with
    | nmi =>
      rw [innerCycle_of_nmi hc]
      exact entryCycle_answers nmiVector h hk hstall hseq.2 fun hlt => hc ▸ ⟨Nat.succ_pos _, hlt⟩
    | irq =>
      rw [innerCycle_of_irq hc]
      exact entryCycle_answers irqVector h hk hstall hseq.2 fun hlt => hc ▸ ⟨Nat.succ_pos _, hlt⟩
    | instr op =>
      rw [innerCycle_of_instr hc]
      obtain ⟨hl, -, hlt⟩ := hseq
      have hk' : s.instructionCycle < 7 := Nat.lt_of_lt_of_le hlt (base_of_legal op hl).2
      split
      next => exact (effectStep_answers op hcore hhalt).mono (rank_inside hk hk')
      next hne => exact advance_answers h hk hstall (hc ▸ ⟨hl, Nat.succ_pos _, Nat.lt_of_le_of_ne hlt hne⟩) hk'

/-! ### The tick -/

/-- The bound of a tick: below the rank where something is in progress, below 600 where a new cycle begins. -/
def tickBound (s : State) : Nat := if settled s then 600 else rank s

theorem settled_iff {s : State} : settled s = true ↔ s.instructionCycle = 0 ∧ s.penaltyLeft = 0 ∧ s.dmaStall = 0 := by
  simp [settled, and_assoc]

theorem rank_totalCycles (n : Nat) (s : State) : rank { s with totalCycles := n } = rank s := rfl

theorem cpuCycle_answers {s : State} (h : s.Inv) (hstall : s.dmaStall = 0) : AnswersBelow (tickBound s) (cpuCycle s) := by
  have h' : State.Inv { s with totalCycles := s.totalCycles + 1 } := { h with }
  cases hhalt : s.halted with
  | true =>
    obtain ⟨hk, hpenalty⟩ := h.halt hhalt
    have hb : tickBound s = 600 := if_pos (settled_iff.mpr ⟨hk, hpenalty, hstall⟩)
    rw [cpuCycle_of_halted hhalt, hb]
    split
    · exact acceptNmi_answers h' hpenalty hstall
    · exact (answers_between h'.core hk (h.current_none hk) h.penalty.1 fun _ => hpenalty).mono (show 517 ≤ 600 by decide)
  | false =>
    by_cases hpenalty : s.penaltyLeft = 0
    · by_cases hk : s.instructionCycle = 0
      · have hb : tickBound s = 600 := if_pos (settled_iff.mpr ⟨hk, hpenalty, hstall⟩)
        rw [cpuCycle_of_boundary hhalt hpenalty hk, hb]
        exact boundaryCycle_answers h' hk hpenalty hstall hhalt
      · have hb : tickBound s = rank s := if_neg fun e => hk (settled_iff.mp e).1
        rw [cpuCycle_of_inner hhalt hpenalty hk, hb, ← rank_totalCycles (s.totalCycles + 1) s]
        exact innerCycle_answers h' hk hstall
    · have hk := h.penalty.2 hpenalty
      have hb : tickBound s = rank s := if_neg fun e => hpenalty (settled_iff.mp e).2.1
      rw [cpuCycle_of_penalty hhalt (Nat.pos_of_ne_zero hpenalty), hb]
      refine ⟨_, rfl, { h with
        penalty := ⟨Nat.le_trans (Nat.sub_le _ _) h.penalty.1, fun _ => hk⟩
        halt := fun e => absurd (hhalt.symm.trans e) (by decide) }, ?_⟩
      simp only [rank]
      omega

/-- A cycle of stall, or a CPU cycle (R291, R301). -/
theorem cpuTick_answers {s : State} (h : s.Inv) : AnswersBelow (tickBound s) (cpuTick s) := by
  by_cases hstall : s.dmaStall = 0
  · rw [cpuTick_of_no_stall hstall]
    exact cpuCycle_answers h hstall
  · have hb : tickBound s = rank s := if_neg fun e => hstall (settled_iff.mp e).2.2
    rw [cpuTick_of_stall (Nat.pos_of_ne_zero hstall), hb]
    refine ⟨_, rfl, { h with stall := Nat.le_trans (Nat.sub_le _ _) h.stall }, ?_⟩
    simp only [rank]
    omega

/-- The PPU's part of a tick leaves the rank. -/
theorem rank_ppuTick (s : State) : rank (ppuTick s) = rank s := by
  obtain ⟨q, pd, d, o, e⟩ := ppuTick_only s
  rw [e]
  rfl

/-- A tick from a state with the invariant answers a next state that has it, of lower rank where something was in
progress. -/
theorem tick_answers {s : State} (h : s.Inv) : AnswersBelow (tickBound s) (tick s) := by
  have hd : State.Inv { Spec.delivered s with masterCycle := s.masterCycle + 1 } := { h with }
  obtain ⟨t, ht, hinv, hr⟩ := cpuTick_answers hd
  rw [tick_of_ntsc h.ntsc, ht]
  exact ⟨ppuTick t, rfl, hinv.ppuTick, (rank_ppuTick t).trans_lt hr⟩

/-! ### The run to the next boundary -/

/-- With more fuel than the rank the run ends, and it keeps the invariant. -/
theorem settle_answers {n : Nat} {s : State} (h : s.Inv) (hn : rank s < n) : ∃ t, settle n s = .next t ∧ t.Inv := by
  induction n generalizing s with
  | zero => exact absurd hn (Nat.not_lt_zero _)
  | succ n ih =>
    unfold settle
    split
    next => exact ⟨s, rfl, h⟩
    next hs =>
      obtain ⟨t, ht, hinv, hr⟩ := tick_answers h
      rw [tickBound, if_neg hs] at hr
      rw [ht]
      exact ih hinv (by omega)

/-- One tick leaves less than the fuel of the run that follows it. -/
theorem tickBound_le_settleFuel (s : State) : tickBound s ≤ settleFuel s := by
  simp only [tickBound, settleFuel, rank]
  split
  · omega
  · split <;> omega

/-- A step from a state with the invariant answers a next state that has it. -/
theorem step_answers {s : State} (h : s.Inv) : ∃ t, step s = .next t ∧ t.Inv := by
  obtain ⟨u, hu, hinv, hr⟩ := tick_answers h
  have hstep : step s = settle (settleFuel s) u := by rw [step, runToBoundary, hu, andThen_next]
  rw [hstep]
  exact settle_answers hinv (Nat.lt_of_lt_of_le hr (tickBound_le_settleFuel s))

/-- Settles O15: every tick of the step keeps the invariant. -/
theorem everyStepKeepsTheInvariant : Obligations.EveryStepKeepsTheInvariant := by
  intro s t h hst
  obtain ⟨u, hu, hinv⟩ := step_answers h
  rw [hst] at hu
  cases hu
  exact hinv

end Sys2Proof.Machine
end

section
/-! The bus and the PPU neither read nor write P: each of their operations commutes with a change of P. -/

namespace Sys2Proof.Machine

/-- The state with another status byte. -/
def State.withP (q : Byte) (s : State) : State := { s with p := q }

/-! ### Reads -/

theorem readMapped_withP (w : Option (Nat × MemoryKind)) (q : Byte) (s : State) :
    readMapped w (s.withP q) = Prod.map id (State.withP q) (readMapped w s) := by
  rcases w with _ | ⟨off, kind⟩ <;> rfl

theorem ppuRead_withP (a : Nat) (q : Byte) (s : State) :
    ppuRead a (s.withP q) = Prod.map id (State.withP q) (ppuRead a s) := by
  unfold ppuRead
  split_ifs
  · exact readMapped_withP _ q s
  · rfl
  · rfl

theorem ppuDataAddr_withP (q : Byte) (s : State) : ppuDataAddr (s.withP q) = ppuDataAddr s := rfl

/-- Below the palette the buffer is returned and refilled (R282). -/
theorem readPpuData_of_le {s : State} (h : ppuDataAddr s ≤ 0x3EFF) : readPpuData s =
    (s.ppu.readBuffer, advanceV (setReadBuffer (ppuRead (ppuDataAddr s) s).1 (ppuRead (ppuDataAddr s) s).2)) :=
  if_pos h

/-- A read at `a` whose byte is returned, then one at `b` whose byte is buffered: what a palette read does (R282). -/
def readAndBuffer (a b : Nat) (s : State) : Byte × State :=
  let r := ppuRead a s
  let q := ppuRead b r.2
  (r.1, advanceV (setReadBuffer q.1 q.2))

theorem readPpuData_of_gt {s : State} (h : ¬ppuDataAddr s ≤ 0x3EFF) :
    readPpuData s = readAndBuffer (ppuDataAddr s) (ppuDataAddr s - 0x1000) s :=
  if_neg h

theorem readAndBuffer_withP (a b : Nat) (q : Byte) (s : State) :
    readAndBuffer a b (s.withP q) = Prod.map id (State.withP q) (readAndBuffer a b s) := by
  simp only [readAndBuffer, ppuRead_withP, Prod.map_snd]
  rfl

theorem readPpuData_withP (q : Byte) (s : State) :
    readPpuData (s.withP q) = Prod.map id (State.withP q) (readPpuData s) := by
  by_cases h : ppuDataAddr s ≤ 0x3EFF
  · rw [readPpuData_of_le h, readPpuData_of_le (s := s.withP q) h, ppuDataAddr_withP, ppuRead_withP]
    rfl
  · rw [readPpuData_of_gt h, readPpuData_of_gt (s := s.withP q) h, ppuDataAddr_withP, readAndBuffer_withP]

theorem ppuRegRead_withP (n : Nat) (q : Byte) (s : State) :
    ppuRegRead n (s.withP q) = Prod.map id (State.withP q) (ppuRegRead n s) := by
  unfold ppuRegRead
  split
  · rfl
  · rfl
  · exact readPpuData_withP q s
  · rfl

theorem busRead_withP (a : Word) (q : Byte) (s : State) :
    busRead a (s.withP q) = Prod.map id (State.withP q) (busRead a s) := by
  unfold busRead
  split_ifs
  · rfl
  · exact ppuRegRead_withP _ q s
  · rfl
  · exact readMapped_withP _ q s

/-! ### Writes -/

theorem mapperPpuWrite_withP (a : Nat) (v q : Byte) (s : State) :
    mapperPpuWrite a v (s.withP q) = (mapperPpuWrite a v s).withP q := by
  have hc : (s.withP q).cart = s.cart := rfl
  unfold mapperPpuWrite
  rw [hc]
  split <;> rfl

theorem ppuWrite_withP (a : Nat) (v q : Byte) (s : State) : ppuWrite a v (s.withP q) = (ppuWrite a v s).withP q := by
  unfold ppuWrite
  split_ifs
  · exact mapperPpuWrite_withP a v q s
  · rfl
  · rfl

theorem writePpuData_withP (v q : Byte) (s : State) : writePpuData v (s.withP q) = (writePpuData v s).withP q := by
  have ha : ppuDataAddr (s.withP q) = ppuDataAddr s := rfl
  rw [writePpuData, ha, ppuWrite_withP]
  rfl

theorem writePpuCtrl_withP (v q : Byte) (s : State) : writePpuCtrl v (s.withP q) = (writePpuCtrl v s).withP q := by
  have hp : (s.withP q).ppu = s.ppu := rfl
  simp only [writePpuCtrl, hp]
  split <;> rfl

theorem writePpuScroll_withP (v q : Byte) (s : State) :
    writePpuScroll v (s.withP q) = (writePpuScroll v s).withP q := by
  have hp : (s.withP q).ppu = s.ppu := rfl
  simp only [writePpuScroll, hp]
  split <;> rfl

theorem writePpuAddr_withP (v q : Byte) (s : State) : writePpuAddr v (s.withP q) = (writePpuAddr v s).withP q := by
  have hp : (s.withP q).ppu = s.ppu := rfl
  simp only [writePpuAddr, hp]
  split <;> rfl

theorem ppuRegWrite_withP (n : Nat) (v q : Byte) (s : State) :
    ppuRegWrite n v (s.withP q) = (ppuRegWrite n v s).withP q := by
  unfold ppuRegWrite
  split
  · exact writePpuCtrl_withP v q s
  · rfl
  · rfl
  · rfl
  · exact writePpuScroll_withP v q s
  · exact writePpuAddr_withP v q s
  · exact writePpuData_withP v q s
  · rfl

theorem mapperWriteRegister_withP (a : Word) (v q : Byte) (s : State) :
    mapperWriteRegister a v (s.withP q) = (mapperWriteRegister a v s).withP q := by
  have hc : (s.withP q).cart = s.cart := rfl
  simp only [mapperWriteRegister, hc]
  split
  · rfl
  · split <;> rfl

theorem mapperCpuWrite_withP (a : Word) (v q : Byte) (s : State) :
    mapperCpuWrite a v (s.withP q) = (mapperCpuWrite a v s).withP q := by
  simp only [mapperCpuWrite, mapperWriteRegister_withP]
  have hc : ((mapperWriteRegister a v s).withP q).cart = (mapperWriteRegister a v s).cart := rfl
  rw [hc]
  split <;> rfl

theorem oamWrite_withP (k : Nat) (v q : Byte) (s : State) : oamWrite k v (s.withP q) = (oamWrite k v s).withP q := rfl

theorem oamDmaCopy_withP (pg : Byte) (n i : Nat) (q : Byte) (s : State) :
    oamDmaCopy pg n i (s.withP q) = (oamDmaCopy pg n i s).withP q := by
  induction n generalizing i s with
  | zero => rfl
  | succ n ih => simp only [oamDmaCopy, busRead_withP, Prod.map_fst, Prod.map_snd, id, oamWrite_withP, ih]

theorem oamDma_withP (v q : Byte) (s : State) : oamDma v (s.withP q) = (oamDma v s).withP q := by
  simp only [oamDma, oamDmaCopy_withP]
  rfl

theorem busWrite_withP (a : Word) (v q : Byte) (s : State) : busWrite a v (s.withP q) = (busWrite a v s).withP q := by
  unfold busWrite
  split_ifs
  · rfl
  · exact ppuRegWrite_withP _ v q s
  · exact oamDma_withP v q s
  · rfl
  · exact mapperCpuWrite_withP a v q s

/-! ### The PPU's cycles -/

theorem secondaryStep_withP (q : Byte) (s : State) : secondaryStep (s.withP q) = (secondaryStep s).withP q := by
  have hp : (s.withP q).ppu = s.ppu := rfl
  simp only [secondaryStep, hp]
  split_ifs <;> rfl

theorem spriteFlagsStep_withP (q : Byte) (s : State) : spriteFlagsStep (s.withP q) = (spriteFlagsStep s).withP q := by
  have hp : (s.withP q).ppu = s.ppu := rfl
  simp only [spriteFlagsStep, hp]
  split <;> rfl

theorem vblankStart_withP (q : Byte) (s : State) : vblankStart (s.withP q) = (vblankStart s).withP q := by
  have hp : (s.withP q).ppu = s.ppu := rfl
  simp only [vblankStart, hp]
  split <;> rfl

theorem ppuAct_withP (q : Byte) (s : State) : ppuAct (s.withP q) = (ppuAct s).withP q := by
  have hp : (s.withP q).ppu = s.ppu := rfl
  simp only [ppuAct, hp, secondaryStep_withP, spriteFlagsStep_withP, vblankStart_withP]
  split_ifs <;> rfl

theorem ppuCycles_withP (n : Nat) (q : Byte) (s : State) : ppuCycles n (s.withP q) = (ppuCycles n s).withP q := by
  induction n generalizing s with
  | zero => rfl
  | succ n ih =>
    have hc : ppuCycle (s.withP q) = (ppuCycle s).withP q := by
      rw [ppuCycle, ppuAct_withP]
      rfl
    rw [ppuCycles, hc, ih]
    rfl

theorem emit_withP (o : Output) (q : Byte) (s : State) : emit o (s.withP q) = (emit o s).withP q := rfl

theorem ppuTick_withP (q : Byte) (s : State) : ppuTick (s.withP q) = (ppuTick s).withP q := by
  have hp (u : State) : (u.withP q).ppu = u.ppu := rfl
  have hm (u : State) : (u.withP q).masterCycle = u.masterCycle := rfl
  simp only [ppuTick, ppuCycles_withP, hp, hm, emit_withP]
  split
  · rfl
  · rfl

end Sys2Proof.Machine
end

section
/-! Two states that differ only in bits of P outside a mask stay so through every operation that reads no such bit: the
operations, the instructions, and the tick and step for bit 4, the live Break bit (R16). -/

namespace Sys2Proof.Machine

/-- The states differ at most in bits of P outside the mask `k`. -/
def SameBut (k : Byte) (s t : State) : Prop := ∃ q, t = s.withP q ∧ AgreeOn k s.p q

/-- The same value, and states that differ at most outside the mask. -/
def SameVal {α : Type} (k : Byte) (x y : α × State) : Prop := x.1 = y.1 ∧ SameBut k x.2 y.2

/-- The same outcome, but for states that may differ outside the mask. -/
def SameOut (k : Byte) : Out → Out → Prop
  | .next s, .next t => SameBut k s t
  | .fault r, .fault r' => r = r'
  | .refused r, .refused r' => r = r'
  | _, _ => False

theorem sameButBreak_iff {s t : State} : Spec.SameButBreak s t ↔ SameBut 0xEF s t := by
  constructor
  · rintro ⟨ht, hp⟩
    exact ⟨t.p, ht, hp.symm⟩
  · rintro ⟨q, rfl, hq⟩
    exact ⟨rfl, hq.symm⟩

section
variable {k : Byte} {s t : State}

theorem SameBut.refl (k : Byte) (s : State) : SameBut k s s := ⟨s.p, rfl, .refl k s.p⟩

/-- What does not depend on P is the same. -/
theorem SameBut.field {α : Type} (h : SameBut k s t) (f : State → α) (hf : ∀ q u, f (State.withP q u) = f u) :
    f t = f s := by
  obtain ⟨q, rfl, -⟩ := h
  exact hf q s

theorem SameBut.agree (h : SameBut k s t) : AgreeOn k s.p t.p := by
  obtain ⟨q, rfl, hq⟩ := h
  exact hq

/-- A flag inside the mask reads the same. -/
theorem SameBut.flag (h : SameBut k s t) {f : Flag} (hf : k &&& f.mask = f.mask) : flag f s.p = flag f t.p :=
  h.agree.flag_eq hf

/-- What follows a value read, for what follows it from any two states. -/
theorem SameVal.bind {α : Type} {x y : α × State} {f : α → State → State} (h : SameVal k x y)
    (hf : ∀ v u q, SameBut k u (u.withP q) → SameBut k (f v u) (f v (u.withP q))) :
    SameBut k (f x.1 x.2) (f y.1 y.2) := by
  obtain ⟨hv, hs⟩ := h
  rw [← hv]
  obtain ⟨q, hq, hagree⟩ := hs
  rw [hq]
  exact hf x.1 x.2 q ⟨q, rfl, hagree⟩

/-- An operation that commutes with every change of P leaves P, so it keeps the relation. -/
theorem SameBut.of_withP {f : State → State} (hf : ∀ q s, f (s.withP q) = (f s).withP q) (h : SameBut k s t) :
    SameBut k (f s) (f t) := by
  obtain ⟨q, rfl, hq⟩ := h
  have hself : f s = (f s).withP s.p := hf s.p s
  have hp : (f s).p = ((f s).withP s.p).p := congrArg State.p hself
  exact ⟨q, hf q s, hp.symm ▸ hq⟩

theorem SameBut.read_of_withP {α : Type} {f : State → α × State}
    (hf : ∀ q s, f (s.withP q) = Prod.map id (State.withP q) (f s)) (h : SameBut k s t) : SameVal k (f s) (f t) := by
  refine ⟨?_, SameBut.of_withP (f := fun u => (f u).2) (fun q u => by rw [hf]; rfl) h⟩
  obtain ⟨q, rfl, -⟩ := h
  rw [hf]
  rfl

/-! ### Operations -/

theorem SameBut.busRead (h : SameBut k s t) (a : Word) : SameVal k (busRead a s) (busRead a t) :=
  h.read_of_withP (busRead_withP a)

theorem SameBut.busWrite (h : SameBut k s t) (a : Word) (v : Byte) : SameBut k (busWrite a v s) (busWrite a v t) :=
  h.of_withP (busWrite_withP a v)

theorem SameBut.ppuTick (h : SameBut k s t) : SameBut k (ppuTick s) (ppuTick t) := h.of_withP ppuTick_withP

theorem SameBut.setPc (h : SameBut k s t) (pc : Word) : SameBut k { s with pc := pc } { t with pc := pc } :=
  h.of_withP (f := fun u => { u with pc := pc }) fun _ _ => rfl

theorem SameBut.setSp (h : SameBut k s t) (sp : Byte) : SameBut k { s with sp := sp } { t with sp := sp } :=
  h.of_withP (f := fun u => { u with sp := sp }) fun _ _ => rfl

/-- P updated in both, where the updates agree. -/
theorem SameBut.setP (h : SameBut k s t) {p q : Byte} (hpq : AgreeOn k p q) :
    SameBut k { s with p := p } { t with p := q } := by
  obtain ⟨r, rfl, -⟩ := h
  exact ⟨q, rfl, hpq⟩

theorem SameBut.loadA (h : SameBut k s t) (v : Byte) : SameBut k (loadA v s) (loadA v t) := by
  obtain ⟨q, rfl, hq⟩ := h
  exact ⟨_, rfl, hq.setZN v⟩

theorem SameBut.loadX (h : SameBut k s t) (v : Byte) : SameBut k (loadX v s) (loadX v t) := by
  obtain ⟨q, rfl, hq⟩ := h
  exact ⟨_, rfl, hq.setZN v⟩

theorem SameBut.loadY (h : SameBut k s t) (v : Byte) : SameBut k (loadY v s) (loadY v t) := by
  obtain ⟨q, rfl, hq⟩ := h
  exact ⟨_, rfl, hq.setZN v⟩

theorem SameBut.storeSum (h : SameBut k s t) (r : Sum) : SameBut k (storeSum r s) (storeSum r t) := by
  obtain ⟨q, rfl, hq⟩ := h
  exact ⟨_, rfl, hq.setSumFlags r⟩

theorem SameBut.putFlag (h : SameBut k s t) (f : Flag) (b : Bool) : SameBut k (putFlag f b s) (putFlag f b t) :=
  h.setP (h.agree.setFlag f b)

/-- Pushes of the same byte. -/
theorem SameBut.push (h : SameBut k s t) {v w : Byte} (hvw : v = w) : SameBut k (push v s) (push w t) := by
  subst hvw
  exact h.of_withP fun q s => by rw [push_eq, push_eq]; rfl

theorem SameBut.pushWord (h : SameBut k s t) (v : Word) : SameBut k (pushWord v s) (pushWord v t) :=
  (h.push rfl).push rfl

theorem SameBut.pull (h : SameBut k s t) : SameVal k (pull s) (pull t) :=
  h.read_of_withP fun q s => by rw [pull_eq, pull_eq]; rfl

theorem SameBut.pullWord (h : SameBut k s t) : SameVal k (pullWord s) (pullWord t) :=
  h.read_of_withP fun q s => by rw [pullWord_eq, pullWord_eq]; rfl

theorem SameBut.busReadWord (h : SameBut k s t) (a b : Word) : SameVal k (busReadWord a b s) (busReadWord a b t) := by
  obtain ⟨hlo, h1⟩ := h.busRead a
  obtain ⟨hhi, h2⟩ := h1.busRead b
  refine ⟨?_, h2⟩
  simp only [Machine.busReadWord, hlo, hhi]

theorem SameBut.loadVector (h : SameBut k s t) (vec : Word) : SameBut k (loadVector vec s) (loadVector vec t) :=
  (h.busReadWord _ _).bind fun pc _ _ h => h.setPc pc

/-- The exception sequence, where the pushed status bytes are the same (R205, R226). -/
theorem SameBut.takeException (h : SameBut k s t) {v w : Byte} (hvw : v = w) (vec : Word) :
    SameBut k (takeException v vec s) (takeException w vec t) := by
  have hpc : t.pc = s.pc := h.field (·.pc) fun _ _ => rfl
  rw [Machine.takeException, Machine.takeException, hpc]
  exact (((h.pushWord s.pc).push hvw).putFlag .I true).loadVector vec

theorem SameBut.returnFromException (h : SameBut k s t) : SameBut k (returnFromException s) (returnFromException t) := by
  obtain ⟨q, rfl, -⟩ := h
  rw [returnFromException_eq, returnFromException_eq]
  exact ⟨_, rfl, .refl _ _⟩

/-! ### Operands -/

theorem resolve_withP (m : Mem) (q : Byte) (s : State) : (resolve m (s.withP q)).1 = (resolve m s).1 := by
  cases m <;> simp only [resolve, zeroPagePointer_eq] <;> rfl

theorem readMem_withP (m : Mem) (q : Byte) (s : State) :
    readMem m (s.withP q) = Prod.map id (State.withP q) (readMem m s) := by
  simp only [readMem, resolve_state, resolve_withP, busRead_withP, chargeCrossing, Prod.map_fst, Prod.map_snd]
  split <;> rfl

theorem SameBut.readMem (h : SameBut k s t) (m : Mem) : SameVal k (readMem m s) (readMem m t) :=
  h.read_of_withP (readMem_withP m)

theorem SameBut.readSrc (h : SameBut k s t) (o : Src) : SameVal k (readSrc o s) (readSrc o t) := by
  cases o with
  | imm v => exact ⟨rfl, h⟩
  | mem m => exact h.readMem m

theorem SameBut.writeMem (h : SameBut k s t) (m : Mem) (v : Byte) : SameBut k (writeMem m v s) (writeMem m v t) :=
  h.of_withP fun q s => by simp only [Machine.writeMem, resolve_state, resolve_withP, busWrite_withP]

/-- A read-modify-write whose new byte does not show the bits outside the mask (R150). -/
theorem SameBut.modifyMem (h : SameBut k s t) {f : Byte → Byte → Byte × Byte}
    (hf : ∀ old p q, AgreeOn k p q → (f old p).1 = (f old q).1 ∧ AgreeOn k (f old p).2 (f old q).2) (m : Mem) :
    SameBut k (modifyMem m f s) (modifyMem m f t) := by
  have hea : (resolve m t).1 = (resolve m s).1 := h.field (fun u => (resolve m u).1) (resolve_withP m)
  simp only [Machine.modifyMem, resolve_state, hea]
  refine (h.busRead (resolve m s).1.ea).bind (f := fun v u =>
    Machine.busWrite (resolve m s).1.ea (f v u.p).1 { u with p := (f v u.p).2 }) fun v s t h => ?_
  obtain ⟨h1, h2⟩ := hf v _ _ h.agree
  rw [h1]
  exact (h.setP h2).busWrite _ _

theorem SameBut.modifyOperand (h : SameBut k s t) {f : Byte → Byte → Byte × Byte}
    (hf : ∀ old p q, AgreeOn k p q → (f old p).1 = (f old q).1 ∧ AgreeOn k (f old p).2 (f old q).2) (o : Rmw) :
    SameBut k (modifyOperand o f s) (modifyOperand o f t) := by
  cases o with
  | acc =>
    obtain ⟨q, rfl, hq⟩ := h
    obtain ⟨h1, h2⟩ := hf s.a _ _ hq
    exact ⟨_, congrArg (fun a => { s with a := a, p := (f s.a q).2 }) h1.symm, h2⟩
  | mem m => exact h.modifyMem hf m

theorem submask_trans {k m n : Byte} (hk : k &&& m = m) (hn : m &&& n = n) : k &&& n = n := by
  rw [← hn, ← BitVec.and_assoc, hk]

/-! ### Instructions -/

theorem SameBut.branch (h : SameBut k s t) {c d : Bool} (hcd : c = d) (off : Byte) :
    SameBut k (branch c off s) (branch d off t) := by
  subst hcd
  refine h.of_withP (f := Machine.branch c off) fun q u => ?_
  simp only [Machine.branch]
  split <;> rfl

theorem SameBut.carryIn (h : SameBut k s t) (hC : k &&& Flag.C.mask = Flag.C.mask) :
    carryIn s.p = carryIn t.p := by
  rw [Machine.carryIn, Machine.carryIn, h.flag hC]

theorem shiftStep_same (hC : k &&& Flag.C.mask = Flag.C.mask) (f : Byte → Bool → Shifted) (old p q : Byte)
    (h : AgreeOn k p q) :
    (shiftStep f old p).1 = (shiftStep f old q).1 ∧ AgreeOn k (shiftStep f old p).2 (shiftStep f old q).2 := by
  rw [shiftStep, shiftStep, h.flag_eq hC]
  exact ⟨rfl, h.setShiftFlags _⟩

theorem countStep_same (delta old p q : Byte) (h : AgreeOn k p q) :
    (countStep delta old p).1 = (countStep delta old q).1 ∧
      AgreeOn k (countStep delta old p).2 (countStep delta old q).2 :=
  ⟨rfl, h.setZN _⟩

theorem SameBut.jumpTarget (h : SameBut k s t) (o : Target) : SameVal k (jumpTarget o s) (jumpTarget o t) := by
  cases o with
  | abs w => exact ⟨rfl, h⟩
  | ind ptr => exact h.busReadWord _ _

/-- Every instruction keeps two states the same but for bits of P that no flag test reads, where PHP and BRK push the same
status byte. -/
theorem exec_same (h : SameBut k s t) (hk : k &&& 0xC3 = 0xC3) (i : Instr)
    (hpush : i = .php ∨ i = .brk → pushedBySoftware s.p = pushedBySoftware t.p) : SameOut k (exec i s) (exec i t) := by
  have hC : k &&& Flag.C.mask = Flag.C.mask := submask_trans hk rfl
  have hZ : k &&& Flag.Z.mask = Flag.Z.mask := submask_trans hk rfl
  have hV : k &&& Flag.V.mask = Flag.V.mask := submask_trans hk rfl
  have hN : k &&& Flag.N.mask = Flag.N.mask := submask_trans hk rfl
  obtain ⟨q, rfl, hq⟩ := h
  have h : SameBut k s (s.withP q) := ⟨q, rfl, hq⟩
  cases i with
  | lda o => exact (h.readSrc o).bind fun v _ _ h => h.loadA v
  | ldx o => exact (h.readSrc o).bind fun v _ _ h => h.loadX v
  | ldy o => exact (h.readSrc o).bind fun v _ _ h => h.loadY v
  | sta m => exact h.writeMem m s.a
  | stx m => exact h.writeMem m s.x
  | sty m => exact h.writeMem m s.y
  | tax => exact h.loadX s.a
  | tay => exact h.loadY s.a
  | txa => exact h.loadA s.x
  | tya => exact h.loadA s.y
  | tsx => exact h.loadX s.sp
  | txs => exact h.setSp s.x
  | pha => exact h.push (v := s.a) rfl
  | php => exact h.push (hpush (.inl rfl))
  | pla => exact h.pull.bind fun v _ _ h => h.loadA v
  | plp => exact h.pull.bind fun v _ _ h => h.setP (.refl k (pulledStatus v))
  | adc o =>
    exact (h.readSrc o).bind (f := fun v u => Machine.storeSum (addWithCarry u.a v (Machine.carryIn u.p)) u)
      fun v u q h => by rw [← h.carryIn hC]; exact h.storeSum (addWithCarry u.a v (Machine.carryIn u.p))
  | sbc o =>
    exact (h.readSrc o).bind (f := fun v u => Machine.storeSum (subWithBorrow u.a v (Machine.carryIn u.p)) u)
      fun v u q h => by rw [← h.carryIn hC]; exact h.storeSum (subWithBorrow u.a v (Machine.carryIn u.p))
  | cmp o =>
    exact (h.readSrc o).bind (f := fun v u => { u with p := setCompare u.a v u.p })
      fun v u _ h => h.setP (h.agree.setCompare u.a v)
  | cpx o =>
    exact (h.readSrc o).bind (f := fun v u => { u with p := setCompare u.x v u.p })
      fun v u _ h => h.setP (h.agree.setCompare u.x v)
  | cpy o =>
    exact (h.readSrc o).bind (f := fun v u => { u with p := setCompare u.y v u.p })
      fun v u _ h => h.setP (h.agree.setCompare u.y v)
  | and o =>
    exact (h.readSrc o).bind (f := fun v u => Machine.loadA (u.a &&& v) u) fun v u _ h => h.loadA (u.a &&& v)
  | ora o =>
    exact (h.readSrc o).bind (f := fun v u => Machine.loadA (u.a ||| v) u) fun v u _ h => h.loadA (u.a ||| v)
  | eor o =>
    exact (h.readSrc o).bind (f := fun v u => Machine.loadA (u.a ^^^ v) u) fun v u _ h => h.loadA (u.a ^^^ v)
  | bit m =>
    exact (h.readMem m).bind (f := fun v u => { u with p := setBitTest u.a v u.p })
      fun v u _ h => h.setP (h.agree.setBitTest u.a v)
  | asl o => exact h.modifyOperand (shiftStep_same hC _) o
  | lsr o => exact h.modifyOperand (shiftStep_same hC _) o
  | rol o => exact h.modifyOperand (shiftStep_same hC _) o
  | ror o => exact h.modifyOperand (shiftStep_same hC _) o
  | inc m => exact h.modifyMem (countStep_same _) m
  | dec m => exact h.modifyMem (countStep_same _) m
  | inx => exact h.loadX (s.x + 1)
  | iny => exact h.loadY (s.y + 1)
  | dex => exact h.loadX (s.x - 1)
  | dey => exact h.loadY (s.y - 1)
  | jmp o => exact (h.jumpTarget o).bind fun pc _ _ h => h.setPc pc
  | jsr w => exact (h.pushWord (s.pc - 1)).setPc w
  | rts => exact h.pullWord.bind fun pc _ _ h => h.setPc (pc + 1)
  | bcc off => exact h.branch (congrArg (!·) (h.flag hC)) off
  | bcs off => exact h.branch (h.flag hC) off
  | beq off => exact h.branch (h.flag hZ) off
  | bne off => exact h.branch (congrArg (!·) (h.flag hZ)) off
  | bmi off => exact h.branch (h.flag hN) off
  | bpl off => exact h.branch (congrArg (!·) (h.flag hN)) off
  | bvc off => exact h.branch (congrArg (!·) (h.flag hV)) off
  | bvs off => exact h.branch (h.flag hV) off
  | clc => exact h.putFlag .C false
  | sec => exact h.putFlag .C true
  | cli => exact h.putFlag .I false
  | sei => exact h.putFlag .I true
  | clv => exact h.putFlag .V false
  | cld => exact h.putFlag .D false
  | sed => exact h.putFlag .D true
  | nop => exact h
  | brk => exact (h.setPc (s.pc + 1)).takeException (hpush (.inr rfl)) irqVector
  | rti => exact h.returnFromException
  | illegal op =>
    exact h.of_withP (f := fun u => { u with halted := true }) fun _ _ => rfl

/-! ### Cycles, ticks and steps: the live Break bit -/

theorem fetchByte_withP (q : Byte) (s : State) : fetchByte (s.withP q) = Prod.map id (State.withP q) (fetchByte s) := by
  have hpc : (s.withP q).pc = s.pc := rfl
  simp only [fetchByte, hpc, busRead_withP]
  rfl

theorem fetchOperands_withP (n : Nat) (q : Byte) (s : State) :
    fetchOperands n (s.withP q) = Prod.map id (State.withP q) (fetchOperands n s) := by
  unfold fetchOperands
  split
  · rfl
  · rw [fetchByte_withP]
    rfl
  · simp only [fetchByte_withP, Prod.map_snd]
    rfl

/-- Goes on from the same outcome to the same outcome. -/
theorem andThen_same {o o' : Out} {f g : State → Out} (h : SameOut k o o')
    (hf : ∀ s t, SameBut k s t → SameOut k (f s) (g t)) : SameOut k (andThen o f) (andThen o' g) := by
  cases o with
  | next s =>
    cases o' with
    | next t => exact hf s t h
    | fault r => cases r
    | refused r => exact h.elim
  | fault r => cases r
  | refused r =>
    cases o' with
    | next t => exact h.elim
    | fault r => cases r
    | refused r' => exact h

end

section
variable {s t : State}

/-- The effect of an instruction does not show the live Break bit: what PHP and BRK push has bit 4 set (R121, R205). -/
theorem exec_sameBut_break (h : SameBut 0xEF s t) (i : Instr) : SameOut 0xEF (exec i s) (exec i t) :=
  exec_same h rfl i fun _ => h.agree.pushedBySoftware

theorem effectStep_same (h : SameBut 0xEF s t) (op : Byte) : SameOut 0xEF (effectStep op s) (effectStep op t) := by
  obtain ⟨hv, hr⟩ := h.read_of_withP (fetchOperands_withP (opEntry op).mode.operandBytes)
  rw [effectStep, effectStep, ← hv]
  exact exec_sameBut_break
    (hr.of_withP (f := fun u => { u with instructionCycle := 0, current := none, penaltyLeft := 0 }) fun _ _ => rfl) _

theorem acceptNmi_same (h : SameBut 0xEF s t) : SameBut 0xEF (acceptNmi s) (acceptNmi t) := h.of_withP fun _ _ => rfl

theorem acceptIrq_same (h : SameBut 0xEF s t) : SameBut 0xEF (acceptIrq s) (acceptIrq t) := h.of_withP fun _ _ => rfl

/-- A reset forgets P (R320). -/
theorem cpuReset_same (h : SameBut 0xEF s t) : SameBut 0xEF (cpuReset s) (cpuReset t) := by
  obtain ⟨q, rfl, -⟩ := h
  exact .refl _ _

theorem fetchCycle_same (h : SameBut 0xEF s t) : SameOut 0xEF (fetchCycle s) (fetchCycle t) := by
  obtain ⟨hv, hr⟩ := h.read_of_withP fetchByte_withP
  simp only [fetchCycle, ← hv]
  split
  · exact hr.of_withP (f := fun u => { u with current := some (.instr (fetchByte s).1), instructionCycle := 1 })
      fun _ _ => rfl
  · exact exec_sameBut_break hr _

theorem boundaryCycle_same (h : SameBut 0xEF s t) : SameOut 0xEF (boundaryCycle s) (boundaryCycle t) := by
  have hI : flag .I s.p = flag .I t.p := h.flag rfl
  have hpending : t.pending = s.pending := h.field (·.pending) fun _ _ => rfl
  simp only [boundaryCycle, hpending, ← hI]
  split_ifs
  · exact acceptNmi_same h
  · exact acceptIrq_same h
  · exact cpuReset_same h
  · exact fetchCycle_same h

theorem nextCycle_same (h : SameBut 0xEF s t) : SameBut 0xEF (nextCycle s) (nextCycle t) := h.of_withP fun _ _ => rfl

/-- An interrupt entry pushes a status byte whose bit 4 is clear (R226). -/
theorem entryCycle_same (h : SameBut 0xEF s t) (vec : Word) : SameOut 0xEF (entryCycle vec s) (entryCycle vec t) := by
  have hk : t.instructionCycle = s.instructionCycle := h.field (·.instructionCycle) fun _ _ => rfl
  rw [entryCycle, entryCycle, hk]
  split
  · exact ((nextCycle_same h).takeException h.agree.pushedByInterrupt vec).of_withP
      (f := fun u => { u with instructionCycle := 0, current := none }) fun _ _ => rfl
  · exact nextCycle_same h

theorem innerCycle_same (h : SameBut 0xEF s t) : SameOut 0xEF (innerCycle s) (innerCycle t) := by
  have h' := nextCycle_same h
  have hk : t.instructionCycle = s.instructionCycle := h.field (·.instructionCycle) fun _ _ => rfl
  have hcur : t.current = s.current := h.field (·.current) fun _ _ => rfl
  cases hc : s.current with
  | none =>
    rw [innerCycle_of_none hc, innerCycle_of_none (hcur.trans hc)]
    exact h'
  | some c =>
    have hc' : t.current = some c := hcur.trans hc
    cases c with
    | nmi =>
      rw [innerCycle_of_nmi hc, innerCycle_of_nmi hc']
      exact entryCycle_same h nmiVector
    | irq =>
      rw [innerCycle_of_irq hc, innerCycle_of_irq hc']
      exact entryCycle_same h irqVector
    | instr op =>
      rw [innerCycle_of_instr hc, innerCycle_of_instr hc', hk]
      split
      · exact effectStep_same h' op
      · exact h'

theorem cpuCycle_same (h : SameBut 0xEF s t) : SameOut 0xEF (cpuCycle s) (cpuCycle t) := by
  have h' : SameBut 0xEF { s with totalCycles := s.totalCycles + 1 } { t with totalCycles := t.totalCycles + 1 } :=
    h.of_withP (f := fun u => { u with totalCycles := u.totalCycles + 1 }) fun _ _ => rfl
  obtain ⟨q, rfl, -⟩ := h
  cases hh : s.halted with
  | true =>
    have hn : (s.withP q).pending = s.pending := rfl
    rw [cpuCycle_of_halted hh, cpuCycle_of_halted (s := s.withP q) hh, hn]
    split
    · exact acceptNmi_same h'
    · exact h'
  | false =>
    by_cases hp : s.penaltyLeft = 0
    · by_cases hk : s.instructionCycle = 0
      · rw [cpuCycle_of_boundary hh hp hk, cpuCycle_of_boundary (s := s.withP q) hh hp hk]
        exact boundaryCycle_same h'
      · rw [cpuCycle_of_inner hh hp hk, cpuCycle_of_inner (s := s.withP q) hh hp hk]
        exact innerCycle_same h'
    · have hpos := Nat.pos_of_ne_zero hp
      rw [cpuCycle_of_penalty hh hpos, cpuCycle_of_penalty (s := s.withP q) hh hpos]
      exact h'.of_withP (f := fun u => { u with penaltyLeft := u.penaltyLeft - 1 }) fun _ _ => rfl

theorem cpuTick_same (h : SameBut 0xEF s t) : SameOut 0xEF (cpuTick s) (cpuTick t) := by
  have hst : t.dmaStall = s.dmaStall := h.field (·.dmaStall) fun _ _ => rfl
  rw [cpuTick, cpuTick, hst]
  split
  · exact h.of_withP (f := fun u => { u with dmaStall := s.dmaStall - 1 }) fun _ _ => rfl
  · exact cpuCycle_same h

theorem tick_same (h : SameBut 0xEF s t) : SameOut 0xEF (tick s) (tick t) := by
  have hm : t.timingMode = s.timingMode := h.field (·.timingMode) fun _ _ => rfl
  cases htm : s.timingMode with
  | pal =>
    rw [tick_of_pal htm, tick_of_pal (hm.trans htm)]
    exact rfl
  | ntsc =>
    rw [tick_of_ntsc htm, tick_of_ntsc (hm.trans htm)]
    refine andThen_same (cpuTick_same ?_) fun _ _ h => h.ppuTick
    exact h.of_withP (f := fun u => { Spec.delivered u with masterCycle := u.masterCycle + 1 }) fun _ _ => rfl

/-- The run to the next boundary, by induction on its fuel. -/
theorem settle_same (n : Nat) (h : SameBut 0xEF s t) : SameOut 0xEF (settle n s) (settle n t) := by
  induction n generalizing s t with
  | zero => exact rfl
  | succ n ih =>
    have hs : settled t = settled s := h.field settled fun _ _ => rfl
    rw [settle, settle, hs]
    split
    · exact h
    · exact andThen_same (tick_same h) fun _ _ h => ih h

theorem step_same (h : SameBut 0xEF s t) : SameOut 0xEF (step s) (step t) := by
  have hf : settleFuel t = settleFuel s := h.field settleFuel fun _ _ => rfl
  rw [step, step, runToBoundary, runToBoundary, hf]
  exact andThen_same (tick_same h) fun _ _ h => settle_same _ h

end

/-- Settles O59: the steps have the same outcome (`step_same`), which is a next state (`step_answers`). -/
theorem liveBreakBitIsUnobservable : Obligations.LiveBreakBitIsUnobservable := by
  intro s t hs ht h
  obtain ⟨s', hs', -⟩ := step_answers hs
  obtain ⟨t', ht', -⟩ := step_answers ht
  have hst := step_same (sameButBreak_iff.mp h)
  rw [hs', ht'] at hst
  exact ⟨s', t', hs', ht', sameButBreak_iff.mpr hst⟩

end Sys2Proof.Machine
end

section
/-! From every state with the invariant the run to the next boundary ends (R42, R220, R331). -/

namespace Sys2Proof.Machine

/-- Settles O14: the rank argument of `step_answers`. -/
theorem everyStepAnswersANextState : Obligations.EveryStepAnswersANextState := by
  intro s h
  obtain ⟨t, ht, -⟩ := step_answers h
  exact ⟨t, ht⟩

end Sys2Proof.Machine
end

section
/-! The bus and the PPU's address space by address: one equation per case of a read and of a write, and the statements
that follow from them (R44 to R60). -/

namespace Sys2Proof.Machine

/-! ### The CPU bus, by address -/

theorem busRead_ram {a : Word} (h : a.toNat ≤ 0x1FFF) (s : State) : busRead a s = (ramByte s (a.toNat % 0x800), s) :=
  if_pos h

theorem busRead_ppu {a : Word} (h : 0x2000 ≤ a.toNat) (h' : a.toNat ≤ 0x3FFF) (s : State) :
    busRead a s = ppuRegRead (a.toNat % 8) s := by
  rw [busRead, if_neg (by omega), if_pos h']

theorem busRead_apuIo {a : Word} (h : 0x4000 ≤ a.toNat) (h' : a.toNat ≤ 0x401F) (s : State) :
    busRead a s = apuIoRead a s := by
  rw [busRead, if_neg (by omega), if_neg (by omega), if_pos h']

theorem busWrite_ram {a : Word} (h : a.toNat ≤ 0x1FFF) (v : Byte) (s : State) :
    busWrite a v s = ramWrite (a.toNat % 0x800) v s :=
  if_pos h

theorem busWrite_ppu {a : Word} (h : 0x2000 ≤ a.toNat) (h' : a.toNat ≤ 0x3FFF) (v : Byte) (s : State) :
    busWrite a v s = ppuRegWrite (a.toNat % 8) v s := by
  rw [busWrite, if_neg (by omega), if_pos h']

theorem busWrite_dma {a : Word} (h : a.toNat = 0x4014) (v : Byte) (s : State) : busWrite a v s = oamDma v s := by
  rw [busWrite, if_neg (by omega), if_neg (by omega), if_pos h]

theorem busWrite_apuIo {a : Word} (h : 0x4000 ≤ a.toNat) (h' : a.toNat ≤ 0x401F) (hd : a.toNat ≠ 0x4014) (v : Byte)
    (s : State) : busWrite a v s = apuIoWrite a v s := by
  rw [busWrite, if_neg (by omega), if_neg (by omega), if_neg hd, if_pos h']

theorem busWrite_cart {a : Word} (h : 0x4020 ≤ a.toNat) (v : Byte) (s : State) :
    busWrite a v s = mapperCpuWrite a v s := by
  rw [busWrite, if_neg (by omega), if_neg (by omega), if_neg (by omega), if_neg (by omega)]

/-! ### Mirroring on the CPU bus -/

/-- RAM read after a RAM write (R46). -/
theorem ramByte_ramWrite (k j : Nat) (v : Byte) (s : State) :
    ramByte (ramWrite k v s) j = if k = j then v else ramByte s j := by
  simp only [ramByte, ramWrite_ram, ramWrite_memEpoch, Memory.find_store_none]
  split <;> rfl

/-- The PPU register at an address is the one at the address modulo 8 above $2000 (R46). -/
theorem toNat_registerAddr (a : Word) : (BitVec.ofNat 16 (0x2000 + a.toNat % 8)).toNat = 0x2000 + a.toNat % 8 := by
  rw [BitVec.toNat_ofNat]
  omega

/-- Settles O39: below $2000 both accesses take the RAM cell at the address modulo 2048, and from $2000 to $3FFF the
register at the address modulo 8. -/
theorem busMirroring : Obligations.BusMirroring := by
  refine ⟨fun a b v s ha hb => ⟨?_, ?_, ?_⟩, fun a v s h h' => ?_⟩
  · rw [busWrite_ram ha, busRead_ram hb, busRead_ram hb, ramByte_ramWrite]
  · rw [busWrite_ram ha]
    rfl
  · rw [busRead_ram hb]
  · have hreg := toNat_registerAddr a
    have hmod : (0x2000 + a.toNat % 8) % 8 = a.toNat % 8 := by omega
    rw [busRead_ppu h h', busWrite_ppu h h', busRead_ppu (by omega) (by omega), busWrite_ppu (by omega) (by omega), hreg,
      hmod]
    exact ⟨rfl, rfl⟩

/-! ### Reads -/

/-- Only a read of a PPU register can change the PPU (R55). -/
theorem busRead_keeps_ppu {a : Word} (h : a.toNat < 0x2000 ∨ 0x3FFF < a.toNat) (s : State) :
    (busRead a s).2.ppu = s.ppu := by
  by_cases hram : a.toNat ≤ 0x1FFF
  · rw [busRead_ram hram]
  by_cases hapu : a.toNat ≤ 0x401F
  · rw [busRead_apuIo (by omega) hapu]
    rfl
  · rw [busRead_cart (by omega)]
    exact readMapped_ppu _ s

/-- Settles O40: `busRead_only`, `busRead_plain` and `busRead_keeps_ppu`. -/
theorem readsHaveNoEffectOutsideDevices : Obligations.ReadsHaveNoEffectOutsideDevices :=
  fun a s => ⟨busRead_only a s, busRead_plain, fun h => busRead_keeps_ppu h s⟩

/-! ### FlatROM -/

section
variable {s : State} (hm : s.cart.mapper = .flatRom)
include hm

theorem mapCpuAddress_flatRom (a : Word) :
    mapCpuAddress s.cart a = if 0x8000 ≤ a.toNat then some (a.toNat - 0x8000, .prgRom) else none := by
  simp only [mapCpuAddress, hm]

theorem mapPpuAddress_flatRom (k : Nat) : mapPpuAddress s.cart k = some (k, .chrRom) := by
  simp only [mapPpuAddress, hm]

/-- FlatROM ignores a write on the CPU side: its one memory there is ROM (R52). -/
theorem mapperCpuWrite_flatRom (a : Word) (v : Byte) : mapperCpuWrite a v s = s := by
  have hreg : mapperWriteRegister a v s = s := by simp only [mapperWriteRegister, hm]
  by_cases h : 0x8000 ≤ a.toNat
  · simp only [mapperCpuWrite, hreg, mapCpuAddress_flatRom hm, if_pos h, cartStore]
  · simp only [mapperCpuWrite, hreg, mapCpuAddress_flatRom hm, if_neg h]

/-- FlatROM ignores a write on the PPU side (R52, R57). -/
theorem mapperPpuWrite_flatRom (k : Nat) (v : Byte) : mapperPpuWrite k v s = s := by
  simp only [mapperPpuWrite, mapPpuAddress_flatRom hm]

end

/-! ### The PPU's address space, by address (R56 to R58) -/

theorem ppuRead_pattern {k : Nat} (h : k < 0x2000) (s : State) : ppuRead k s = mapperPpuRead k s :=
  if_pos (Nat.le_of_lt_succ h)

theorem ppuRead_nametable {k : Nat} (h : 0x2000 ≤ k) (h' : k < 0x3F00) (s : State) :
    ppuRead k s = (vramByte s (ntIndex s.cart.mirroring k), s) := by
  rw [ppuRead, if_neg (by omega), if_pos (by omega)]

theorem ppuRead_palette {k : Nat} (h : 0x3F00 ≤ k) (s : State) : ppuRead k s = (paletteByte s (k % 0x20), s) := by
  rw [ppuRead, if_neg (by omega), if_neg (by omega)]

theorem ppuWrite_pattern {k : Nat} (h : k < 0x2000) (v : Byte) (s : State) : ppuWrite k v s = mapperPpuWrite k v s :=
  if_pos (Nat.le_of_lt_succ h)

theorem ppuWrite_nametable {k : Nat} (h : 0x2000 ≤ k) (h' : k < 0x3F00) (v : Byte) (s : State) :
    ppuWrite k v s = { s with ppu := { s.ppu with vram := s.ppu.vram.store none (ntIndex s.cart.mirroring k) v } } := by
  rw [ppuWrite, if_neg (by omega), if_pos (by omega)]

theorem ppuWrite_palette {k : Nat} (h : 0x3F00 ≤ k) (v : Byte) (s : State) :
    ppuWrite k v s = { s with ppu := { s.ppu with palette := s.ppu.palette.store none (k % 0x20) v } } := by
  rw [ppuWrite, if_neg (by omega), if_neg (by omega)]

/-- Settles O41: the equations of the bus and of FlatROM at the addresses outside RAM and the PPU's registers. -/
theorem outsideWritesChangeNoCoreState : Obligations.OutsideWritesChangeNoCoreState := by
  refine fun a v s => ⟨fun h h' hd => ?_, fun hm => ⟨fun h => ?_, fun h h' => ?_, fun h => ?_, fun k hk => ⟨?_, ?_⟩⟩,
    fun h => ?_⟩
  · rw [busWrite_apuIo h h' hd]
    rfl
  · rw [busRead_cart (by omega), mapCpuAddress_flatRom hm, if_pos h]
    rfl
  · rw [busRead_cart h, mapCpuAddress_flatRom hm, if_neg (by omega), readMapped_none]
  · rw [busWrite_cart h, mapperCpuWrite_flatRom hm]
  · rw [ppuRead_pattern hk, mapperPpuRead, mapPpuAddress_flatRom hm, readMapped_some]
  · rw [ppuWrite_pattern hk, mapperPpuWrite_flatRom hm]
  · rw [busRead_cart h]
    rcases mapCpuAddress s.cart a with _ | ⟨off, kind⟩ <;> rfl

/-! ### Nametables and palette -/

/-- The nametables repeat every 4096 bytes (R58, R59). -/
theorem ntIndex_mirror (m : Mirroring) (k : Nat) : ntIndex m (0x3000 + k) = ntIndex m (0x2000 + k) := by
  have h : (0x3000 + k) % 0x1000 = (0x2000 + k) % 0x1000 := by omega
  simp only [ntIndex, h]

/-- A palette address counts modulo 32 from $3F00 (R60). -/
theorem paletteAddr_mod (k : Nat) : (0x3F00 + k) % 0x20 = k % 32 := by omega

/-- A palette write is seen at its index and at no other (R60). -/
theorem paletteByte_ppuWrite {k : Nat} (hk : 0x3F00 ≤ k) (v : Byte) (s : State) (j : Nat) :
    paletteByte (ppuWrite k v s) j = if k % 0x20 = j then v else paletteByte s j := by
  simp only [ppuWrite_palette hk, paletteByte, Memory.find_store_none]
  split <;> rfl

/-- A nametable write is seen at its place in VRAM and at no other (R59). -/
theorem vramByte_ppuWrite {k : Nat} (hk : 0x2000 ≤ k) (hk' : k < 0x3F00) (v : Byte) (s : State) (j : Nat) :
    vramByte (ppuWrite k v s) j = if ntIndex s.cart.mirroring k = j then v else vramByte s j := by
  simp only [ppuWrite_nametable hk hk', vramByte, Memory.find_store_none]
  split <;> rfl

/-- A nametable write leaves the cartridge, and with it the mirroring. -/
theorem ppuWrite_nametable_cart {k : Nat} (hk : 0x2000 ≤ k) (hk' : k < 0x3F00) (v : Byte) (s : State) :
    (ppuWrite k v s).cart = s.cart := by
  rw [ppuWrite_nametable hk hk']

/-- The offset inside a nametable (R59). -/
theorem nametableOffset_mod (k : Nat) : k % 0x1000 % 0x400 = k % 0x400 := Nat.mod_mod_of_dvd k (by decide)

/-- Settles O53: the formulas are `ntIndex` itself; the rest is read after write in VRAM and in the palette. -/
theorem nametableAndPaletteMirroring : Obligations.NametableAndPaletteMirroring := by
  refine ⟨fun a _ => ?_, fun s v k j => ⟨fun hk => ⟨?_, ?_⟩, fun hk hj => ?_, fun hk hj => ?_⟩⟩
  · simp only [ntIndex, nametableOffset_mod, and_self]
  · rw [ppuRead_nametable (by omega) (by omega), ppuRead_nametable (by omega) (by omega), ntIndex_mirror]
  · rw [ppuWrite_nametable (by omega) (by omega), ppuWrite_nametable (by omega) (by omega), ntIndex_mirror]
  · rw [ppuRead_palette (by omega), ppuRead_palette (by omega), paletteByte_ppuWrite (by omega), paletteAddr_mod,
      paletteAddr_mod]
  · rw [ppuRead_nametable (by omega) (by omega), ppuRead_nametable (by omega) (by omega),
      ppuWrite_nametable_cart (by omega) (by omega), vramByte_ppuWrite (by omega) (by omega)]

end Sys2Proof.Machine
end

section
/-! Effective addresses, pointers and stack addresses of the model as the natural-number formulas of the statements (R13,
R77 to R86). -/

namespace Sys2Proof.Machine

theorem zext16_eq_ofNat (b : Byte) : zext16 b = BitVec.ofNat 16 b.toNat := by
  rw [zext16, BitVec.ofNat_toNat]

/-- A pointer at the zero-page address `z` modulo 256 (R84, R85). -/
theorem zeroPagePointer_eq_pointer {b : Byte} {z : Nat} (hz : b.toNat = z % 256) (s : State) :
    (zeroPagePointer b s).1 = BitVec.ofNat 16 (Spec.pointer s z) := by
  have hnext : (b + 1).toNat = (z + 1) % 256 := by
    bv_omega
  rw [zeroPagePointer_eq, hiLo_eq_ofNat, Spec.pointer, hnext, hz, Nat.add_comm, Nat.mul_comm]

/-- Every mode's effective address is the base plus the index (R77 to R85). -/
theorem resolve_ea (m : Mem) (s : State) : (resolve m s).1.ea = Spec.ea m s := by
  have hindx (b : Byte) : (zeroPagePointer (b + s.x) s).1 = BitVec.ofNat 16 (Spec.pointer s (b.toNat + s.x.toNat)) :=
    zeroPagePointer_eq_pointer (BitVec.toNat_add b s.x) s
  have hindy (b : Byte) : (zeroPagePointer b s).1 = BitVec.ofNat 16 (Spec.pointer s b.toNat) :=
    zeroPagePointer_eq_pointer (Nat.mod_eq_of_lt b.isLt).symm s
  cases m <;> simp [resolve, plain, indexed, Spec.ea, Spec.base, Spec.index, zext16_eq_ofNat, hindx, hindy,
    BitVec.ofNat_add]

/-- The low byte of a word is its bits 7 to 0 (R43). -/
theorem getLsbD_hiLo (hi lo : Byte) (i : Nat) :
    (hiLo hi lo).getLsbD i = if i < 8 then lo.getLsbD i else hi.getLsbD (i - 8) :=
  BitVec.getLsbD_append

/-- The pointer of an indirect JMP does not leave its page (R83). -/
theorem jumpPointerHigh_eq (ptr : Word) : page ptr ||| ((ptr + 1) &&& 0x00FF) =
    BitVec.ofNat 16 (ptr.toNat / 256 * 256 + (ptr.toNat + 1) % 256) := by
  have hbytes : page ptr ||| ((ptr + 1) &&& 0x00FF) = hiLo (hi8 ptr) (lo8 (ptr + 1)) := by
    refine BitVec.eq_of_getLsbD_eq fun i hi => ?_
    rw [getLsbD_hiLo]
    interval_cases i <;> simp [page, hi8, lo8]
  have hone : (ptr + 1).toNat % 256 = (ptr.toNat + 1) % 256 := by bv_omega
  rw [hbytes, hiLo_eq_ofNat, toNat_hi8, toNat_lo8, hone, Nat.add_comm, Nat.mul_comm]

/-- The address of a stack byte as the statements write it (R13). -/
theorem stackAddr_eq_stackCell (sp : Byte) : stackAddr sp = BitVec.ofNat 16 (Spec.stackCell sp) := by
  rw [stackAddr, zext16_eq_ofNat, Spec.stackCell, BitVec.ofNat_add]
  rfl

end Sys2Proof.Machine
end

section
/-! The memory accesses of an instruction, said once for all of `exec`: reads of the addresses `loaded` lists, writes of
those `stored` lists, and updates of CPU registers between them. The two frames follow by induction on the accesses (R41,
R46, R51, R55, R89). -/

namespace Sys2Proof.Machine

open Sys2Proof.Spec (ea stackCell loaded stored memoryAt leavesAlone)

/-- `t` is `s` but for the CPU registers, the penalty and the halt. -/
def OnlyCpu (s t : State) : Prop :=
  ∃ a x y pc sp p n h, t = { s with a := a, x := x, y := y, pc := pc, sp := sp, p := p, penaltyLeft := n, halted := h }

/-- `t` comes from `s` by updates of CPU registers, bus reads of addresses in `L` and bus writes of addresses in `W`. -/
inductive Accesses (L W : List Word) : State → State → Prop where
  | refl (s : State) : Accesses L W s s
  | cpu {s t u : State} : Accesses L W s t → OnlyCpu t u → Accesses L W s u
  | read {s t : State} {a : Word} : Accesses L W s t → a ∈ L → Accesses L W s (busRead a t).2
  | write {s t : State} {a : Word} (v : Byte) : Accesses L W s t → a ∈ W → Accesses L W s (busWrite a v t)

section
variable {L W : List Word} {s t u : State}

theorem OnlyCpu.accesses (h : OnlyCpu s t) : Accesses L W s t := .cpu (.refl s) h

theorem Accesses.trans (h : Accesses L W s t) (k : Accesses L W t u) : Accesses L W s u := by
  induction k with
  | refl => exact h
  | cpu _ hc ih => exact ih.cpu hc
  | read _ ha ih => exact ih.read ha
  | write v _ ha ih => exact ih.write v ha

/-! ### The shared operations -/

theorem chargeCrossing_cpu (b : Bool) (s : State) : OnlyCpu s (chargeCrossing b s) := by
  unfold chargeCrossing
  split <;> exact ⟨_, _, _, _, _, _, _, _, rfl⟩

theorem branch_cpu (c : Bool) (off : Byte) (s : State) : OnlyCpu s (branch c off s) := by
  simp only [branch]
  split <;> exact ⟨_, _, _, _, _, _, _, _, rfl⟩

/-- Pulls read the stack, which is RAM, so they reach no device and leave memory. -/
theorem pull_cpu (s : State) : OnlyCpu s (pull s).2 := by
  rw [pull_eq]
  exact ⟨_, _, _, _, _, _, _, _, rfl⟩

theorem pullWord_cpu (s : State) : OnlyCpu s (pullWord s).2 := by
  rw [pullWord_eq]
  exact ⟨_, _, _, _, _, _, _, _, rfl⟩

theorem returnFromException_cpu (s : State) : OnlyCpu s (returnFromException s) := by
  rw [returnFromException_eq]
  exact ⟨_, _, _, _, _, _, _, _, rfl⟩

theorem readMem_accesses {m : Mem} (h : ea m s ∈ L) : Accesses L W s (readMem m s).2 := by
  simp only [readMem, resolve_state, resolve_ea]
  exact ((Accesses.refl s).read h).cpu (chargeCrossing_cpu _ _)

theorem readSrc_accesses {o : Src} (h : ∀ m, o = .mem m → ea m s ∈ L) : Accesses L W s (readSrc o s).2 := by
  cases o with
  | imm v => exact .refl s
  | mem m => exact readMem_accesses (h m rfl)

theorem writeMem_accesses {m : Mem} (h : ea m s ∈ W) (v : Byte) : Accesses L W s (writeMem m v s) := by
  simp only [writeMem, resolve_state, resolve_ea]
  exact (Accesses.refl s).write v h

theorem modifyMem_accesses {m : Mem} (hl : ea m s ∈ L) (hw : ea m s ∈ W) (f : Byte → Byte → Byte × Byte) :
    Accesses L W s (modifyMem m f s) := by
  simp only [modifyMem, resolve_state, resolve_ea]
  exact (((Accesses.refl s).read hl).cpu ⟨_, _, _, _, _, _, _, _, rfl⟩).write _ hw

theorem modifyOperand_accesses {o : Rmw} (h : ∀ m, o = .mem m → ea m s ∈ L ∧ ea m s ∈ W)
    (f : Byte → Byte → Byte × Byte) : Accesses L W s (modifyOperand o f s) := by
  cases o with
  | acc => exact OnlyCpu.accesses ⟨_, _, _, _, _, _, _, _, rfl⟩
  | mem m => exact modifyMem_accesses (h m rfl).1 (h m rfl).2 f

theorem push_accesses (h : BitVec.ofNat 16 (stackCell s.sp) ∈ W) (v : Byte) : Accesses L W s (push v s) := by
  rw [← stackAddr_eq_stackCell] at h
  exact ((Accesses.refl s).write v h).cpu ⟨_, _, _, _, _, _, _, _, rfl⟩

theorem pushWord_accesses (h : BitVec.ofNat 16 (stackCell s.sp) ∈ W)
    (h' : BitVec.ofNat 16 (stackCell (s.sp - 1)) ∈ W) (v : Word) : Accesses L W s (pushWord v s) :=
  (push_accesses h _).trans (push_accesses h' _)

theorem busReadWord_accesses {a b : Word} (ha : a ∈ L) (hb : b ∈ L) : Accesses L W s (busReadWord a b s).2 :=
  ((Accesses.refl s).read ha).read hb

theorem jumpTarget_accesses {o : Target} (h : ∀ ptr, o = .ind ptr → ptr ∈ L ∧
    BitVec.ofNat 16 (ptr.toNat / 256 * 256 + (ptr.toNat + 1) % 256) ∈ L) : Accesses L W s (jumpTarget o s).2 := by
  cases o with
  | abs w => exact .refl s
  | ind ptr =>
    rw [jumpTarget, jumpPointerHigh_eq]
    exact busReadWord_accesses (h ptr rfl).1 (h ptr rfl).2

/-- The exception sequence pushes three bytes and reads the vector (R205, R226). -/
theorem takeException_accesses {vec : Word} (h : BitVec.ofNat 16 (stackCell s.sp) ∈ W)
    (h1 : BitVec.ofNat 16 (stackCell (s.sp - 1)) ∈ W) (h2 : BitVec.ofNat 16 (stackCell (s.sp - 2)) ∈ W)
    (hv : vec ∈ L) (hv' : vec + 1 ∈ L) (status : Byte) : Accesses L W s (takeException status vec s) := by
  have hsp : (pushWord s.pc s).sp = s.sp - 2 := by rw [pushWord_eq]
  have hpushed := (pushWord_accesses (L := L) h h1 s.pc).trans (push_accesses (hsp ▸ h2) status)
  have hflag := hpushed.cpu (u := putFlag .I true _) ⟨_, _, _, _, _, _, _, _, rfl⟩
  exact (hflag.trans (busReadWord_accesses hv hv')).cpu ⟨_, _, _, _, _, _, _, _, rfl⟩

end

/-- Every instruction answers a next state, reached by reads of the addresses `loaded` lists and writes of those `stored`
lists (R89). -/
theorem exec_accesses (i : Instr) (s : State) :
    ∃ t, exec i s = .next t ∧ Accesses (loaded i s) (stored i s) s t := by
  cases i with
  | tax | tay | txa | tya | tsx | txs | inx | iny | dex | dey | clc | sec | cli | sei | clv | cld | sed | nop
  | illegal =>
    exact ⟨_, rfl, OnlyCpu.accesses ⟨_, _, _, _, _, _, _, _, rfl⟩⟩
  | bcc off | bcs off | beq off | bne off | bmi off | bpl off | bvc off | bvs off =>
    exact ⟨_, rfl, (branch_cpu _ off s).accesses⟩
  | lda o | ldx o | ldy o | adc o | sbc o | cmp o | cpx o | cpy o | and o | ora o | eor o =>
    refine ⟨_, rfl, Accesses.cpu (readSrc_accesses (o := o) ?_) ⟨_, _, _, _, _, _, _, _, rfl⟩⟩
    rintro m rfl
    exact .head _
  | bit m => exact ⟨_, rfl, Accesses.cpu (readMem_accesses (m := m) (.head _)) ⟨_, _, _, _, _, _, _, _, rfl⟩⟩
  | sta m | stx m | sty m => exact ⟨_, rfl, writeMem_accesses (.head _) _⟩
  | asl o | lsr o | rol o | ror o =>
    refine ⟨_, rfl, modifyOperand_accesses ?_ _⟩
    rintro m rfl
    exact ⟨.head _, .head _⟩
  | inc m | dec m => exact ⟨_, rfl, modifyMem_accesses (.head _) (.head _) _⟩
  | pha | php => exact ⟨_, rfl, push_accesses (.head _) _⟩
  | pla | plp => exact ⟨_, rfl, (pull_cpu s).accesses.cpu ⟨_, _, _, _, _, _, _, _, rfl⟩⟩
  | rts => exact ⟨_, rfl, (pullWord_cpu s).accesses.cpu ⟨_, _, _, _, _, _, _, _, rfl⟩⟩
  | rti => exact ⟨_, rfl, (returnFromException_cpu s).accesses⟩
  | jmp o =>
    refine ⟨_, rfl, Accesses.cpu (jumpTarget_accesses (o := o) ?_) ⟨_, _, _, _, _, _, _, _, rfl⟩⟩
    rintro ptr rfl
    exact ⟨.head _, .tail _ (.head _)⟩
  | jsr w =>
    exact ⟨_, rfl, (pushWord_accesses (.head _) (.tail _ (.head _)) _).cpu ⟨_, _, _, _, _, _, _, _, rfl⟩⟩
  | brk =>
    have hpc : OnlyCpu s { s with pc := s.pc + 1 } := ⟨_, _, _, _, _, _, _, _, rfl⟩
    have hhigh : irqVector + 1 ∈ loaded .brk s := .tail _ (.head _)
    exact ⟨_, rfl, hpc.accesses.trans (takeException_accesses (s := { s with pc := s.pc + 1 }) (.head _)
      (.tail _ (.head _)) (.tail _ (.tail _ (.head _))) (.head _) hhigh _)⟩

theorem accesses_of_exec {i : Instr} {s t : State} (h : exec i s = .next t) :
    Accesses (loaded i s) (stored i s) s t := by
  obtain ⟨u, hu, k⟩ := exec_accesses i s
  rw [h] at hu
  cases hu
  exact k

/-! ### Plain accesses reach no device -/

/-- The two states have the same devices: PPU, cartridge, latch, DMA stall, free values drawn, outputs. -/
structure SameDevices (s t : State) : Prop where
  ppu : t.ppu = s.ppu
  cart : t.cart = s.cart
  pending : t.pending = s.pending
  dmaStall : t.dmaStall = s.dmaStall
  draws : t.draws = s.draws
  outputs : t.outputs = s.outputs

/-- A write to plain memory changes RAM at most: FlatROM's PRG array takes no byte (R46, R52). -/
theorem busWrite_plain {a : Word} {s : State} (h : plainMemory s.cart a = true) (v : Byte) :
    ∃ r, busWrite a v s = { s with ram := r } := by
  simp only [plainMemory, Bool.or_eq_true, Bool.and_eq_true, decide_eq_true_eq, beq_iff_eq] at h
  rcases h with h | ⟨h, hm⟩
  · exact ⟨_, busWrite_ram h v s⟩
  · refine ⟨s.ram, ?_⟩
    rw [busWrite_cart (by omega), mapperCpuWrite_flatRom hm]

theorem Accesses.sameDevices {L W : List Word} {s t : State} (h : Accesses L W s t)
    (hp : ∀ a ∈ L ++ W, plainMemory s.cart a = true) : SameDevices s t := by
  induction h with
  | refl => exact ⟨rfl, rfl, rfl, rfl, rfl, rfl⟩
  | cpu _ hc ih =>
    obtain ⟨_, _, _, _, _, _, _, _, rfl⟩ := hc
    exact { ih with }
  | read _ ha ih =>
    rw [busRead_plain (ih.cart ▸ hp _ (List.mem_append_left _ ha))]
    exact ih
  | write v _ ha ih =>
    obtain ⟨r, hr⟩ := busWrite_plain (ih.cart ▸ hp _ (List.mem_append_right _ ha)) v
    rw [hr]
    exact { ih with }

/-- Settles O38: each access of the instruction keeps the devices. -/
theorem plainAccessesReachNoDevice : Obligations.PlainAccessesReachNoDevice := by
  intro i s t h hp
  have k := (accesses_of_exec h).sameDevices hp
  exact ⟨k.ppu, k.cart, k.pending, k.dmaStall, k.draws, k.outputs⟩

/-! ### Writes leave the other bytes of memory -/

/-- Everything a PPU bus write can do; FlatROM's cartridge it leaves (R57). -/
theorem ppuWrite_eq (k : Nat) (v : Byte) (s : State) :
    ∃ q c, ppuWrite k v s = { s with ppu := q, cart := c } ∧ (s.cart.mapper = .flatRom → c = s.cart) := by
  by_cases hp : k < 0x2000
  · rw [ppuWrite_pattern hp]
    by_cases hm : s.cart.mapper = .flatRom
    · exact ⟨s.ppu, s.cart, mapperPpuWrite_flatRom hm k v, fun _ => rfl⟩
    · unfold mapperPpuWrite
      split <;> exact ⟨s.ppu, _, rfl, fun e => absurd e hm⟩
  by_cases hn : k < 0x3F00
  · exact ⟨_, s.cart, ppuWrite_nametable (by omega) hn v s, fun _ => rfl⟩
  · exact ⟨_, s.cart, ppuWrite_palette (by omega) v s, fun _ => rfl⟩

/-- Everything a PPU register write can do; FlatROM's cartridge it leaves (R274). -/
theorem ppuRegWrite_eq (n : Nat) (v : Byte) (s : State) :
    ∃ q pd c, ppuRegWrite n v s = { s with ppu := q, pending := pd, cart := c } ∧
      (s.cart.mapper = .flatRom → c = s.cart) := by
  unfold ppuRegWrite
  split
  · simp only [writePpuCtrl]
    split <;> exact ⟨_, _, s.cart, rfl, fun _ => rfl⟩
  · exact ⟨_, _, s.cart, rfl, fun _ => rfl⟩
  · exact ⟨_, _, s.cart, rfl, fun _ => rfl⟩
  · exact ⟨_, _, s.cart, rfl, fun _ => rfl⟩
  · unfold writePpuScroll
    split <;> exact ⟨_, _, s.cart, rfl, fun _ => rfl⟩
  · unfold writePpuAddr
    split <;> exact ⟨_, _, s.cart, rfl, fun _ => rfl⟩
  · obtain ⟨q, c, h, hc⟩ := ppuWrite_eq (ppuDataAddr s) v s
    rw [writePpuData, h]
    exact ⟨_, s.pending, c, rfl, hc⟩
  · exact ⟨_, _, s.cart, rfl, fun _ => rfl⟩

/-- Everything a cartridge write can do; FlatROM's cartridge it leaves (R51, R52). -/
theorem mapperCpuWrite_eq (a : Word) (v : Byte) (s : State) :
    ∃ pd c, mapperCpuWrite a v s = { s with pending := pd, cart := c } ∧ (s.cart.mapper = .flatRom → c = s.cart) := by
  by_cases hm : s.cart.mapper = .flatRom
  · exact ⟨s.pending, s.cart, mapperCpuWrite_flatRom hm a v, fun _ => rfl⟩
  · have hreg : ∃ pd c, mapperWriteRegister a v s = { s with pending := pd, cart := c } := by
      unfold mapperWriteRegister
      split
      · exact ⟨_, _, rfl⟩
      · simp only []
        split <;> exact ⟨_, _, rfl⟩
    obtain ⟨pd, c, hr⟩ := hreg
    simp only [mapperCpuWrite, hr]
    split <;> exact ⟨pd, _, rfl, fun e => absurd e hm⟩

/-- Everything a write above RAM can do: it leaves RAM, and the cartridge too where that is FlatROM or the write is to
the APU/IO block or starts an OAM DMA (R48, R51, R290). -/
theorem busWrite_device {a : Word} (ha : 0x1FFF < a.toNat) (v : Byte) (s : State) : ∃ q pd c d st o,
    busWrite a v s = { s with ppu := q, pending := pd, cart := c, draws := d, dmaStall := st, outputs := o } ∧
      (s.cart.mapper = .flatRom ∨ (0x4000 ≤ a.toNat ∧ a.toNat ≤ 0x401F) → c = s.cart) := by
  by_cases hppu : a.toNat ≤ 0x3FFF
  · obtain ⟨q, pd, c, h, hc⟩ := ppuRegWrite_eq (a.toNat % 8) v s
    rw [busWrite_ppu (by omega) hppu, h]
    exact ⟨q, pd, c, s.draws, s.dmaStall, s.outputs, rfl, fun e => hc (e.resolve_right (by omega))⟩
  by_cases hdma : a.toNat = 0x4014
  · obtain ⟨q, d, h⟩ := oamDmaCopy_only v 256 0 s
    simp only [busWrite_dma hdma, oamDma, h]
    exact ⟨q, s.pending, s.cart, d, _, s.outputs, rfl, fun _ => rfl⟩
  by_cases hapu : a.toNat ≤ 0x401F
  · rw [busWrite_apuIo (by omega) hapu hdma]
    exact ⟨s.ppu, s.pending, s.cart, s.draws, s.dmaStall, _, rfl, fun _ => rfl⟩
  · obtain ⟨pd, c, h, hc⟩ := mapperCpuWrite_eq a v s
    rw [busWrite_cart (by omega), h]
    exact ⟨s.ppu, pd, c, s.draws, s.dmaStall, s.outputs, rfl, fun e => hc (e.resolve_right (by omega))⟩

/-- What the byte of memory at `a` is read from is the same: its RAM byte, or the cartridge. -/
structure KeepsByte (a : Word) (s t : State) : Prop where
  ram : a.toNat ≤ 0x1FFF → ramByte t (a.toNat % 0x800) = ramByte s (a.toNat % 0x800)
  cart : 0x4020 ≤ a.toNat → t.cart = s.cart

theorem KeepsByte.refl (a : Word) (s : State) : KeepsByte a s s := ⟨fun _ => rfl, fun _ => rfl⟩

theorem KeepsByte.trans {a : Word} {s t u : State} (h : KeepsByte a s t) (k : KeepsByte a t u) : KeepsByte a s u :=
  ⟨fun e => (k.ram e).trans (h.ram e), fun e => (k.cart e).trans (h.cart e)⟩

/-- Then the byte is read the same (R46, R51). -/
theorem KeepsByte.busRead {a : Word} {s t : State} (h : KeepsByte a s t) (ha : memoryAt s.cart a) :
    (busRead a t).1 = (busRead a s).1 := by
  rcases ha with ha | ⟨ha, hmap⟩
  · rw [busRead_ram ha, busRead_ram ha, h.ram ha]
  · obtain ⟨⟨off, kind⟩, hat⟩ := Option.isSome_iff_exists.mp hmap
    rw [busRead_cart ha, busRead_cart ha, h.cart ha, hat, readMapped_some, readMapped_some, h.cart ha]

theorem leavesAlone_congr {c d : Cartridge} {w a : Word} (h : leavesAlone c w a) (hc : 0x4020 ≤ a.toNat → d = c) :
    leavesAlone d w a :=
  ⟨h.1, fun e => by rw [hc e]; exact h.2 e⟩

theorem busWrite_keepsByte {w a : Word} {s : State} (h : leavesAlone s.cart w a) (v : Byte) :
    KeepsByte a s (busWrite w v s) := by
  obtain ⟨hram, hcart⟩ := h
  by_cases hw : w.toNat ≤ 0x1FFF
  · rw [busWrite_ram hw]
    exact ⟨fun ha => by rw [ramByte_ramWrite, if_neg (hram ha hw)], fun _ => rfl⟩
  · obtain ⟨q, pd, c, d, st, o, e, hc⟩ := busWrite_device (Nat.lt_of_not_le hw) v s
    rw [e]
    exact ⟨fun _ => rfl, fun ha => hc ((hcart ha).imp_right fun k => k.resolve_left hw)⟩

theorem Accesses.keepsByte {L W : List Word} {s t : State} {a : Word} (h : Accesses L W s t)
    (hw : ∀ w ∈ W, leavesAlone s.cart w a) : KeepsByte a s t := by
  induction h with
  | refl => exact .refl a s
  | cpu _ hc ih =>
    obtain ⟨_, _, _, _, _, _, _, _, rfl⟩ := hc
    exact { ih with }
  | @read u b _ _ ih =>
    obtain ⟨q, d, e⟩ := busRead_only b u
    rw [e]
    exact { ih with }
  | write v _ hb ih => exact ih.trans (busWrite_keepsByte (leavesAlone_congr (hw _ hb) ih.cart) v)

/-- Settles O37: each access of the instruction keeps what the byte is read from. -/
theorem instructionsKeepOtherMemory : Obligations.InstructionsKeepOtherMemory :=
  fun _ _ _ h _ ha hw => ((accesses_of_exec h).keepsByte hw).busRead ha

end Sys2Proof.Machine
end

section
/-! The decoder and the encoder against each other: the operand bytes of each operand form, the forms of each mnemonic, the
rows of the instruction table, and the statements about encoding that follow (R70 to R73, R91 to R93, R95). -/

namespace Sys2Proof

open Machine (hiLo_hi8_lo8 toNat_hi8 toNat_hiLo)

/-! ### Operand bytes -/

@[simp] theorem lo8_hiLo (hi lo : Byte) : lo8 (hiLo hi lo) = lo := BitVec.setWidth_append_eq_right

@[simp] theorem hi8_hiLo (hi lo : Byte) : hi8 (hiLo hi lo) = hi := by
  apply BitVec.eq_of_toNat_eq
  rw [toNat_hi8, toNat_hiLo]
  omega

/-- The first operand byte, 0 where there is none. -/
def operand1 (bs : List Byte) : Byte := bs.getD 0 0

/-- The second operand byte, 0 where there is none. -/
def operand2 (bs : List Byte) : Byte := bs.getD 1 0

/-- The operand bytes of a mode among the two bytes that may follow the opcode (R70, R71). -/
def Mode.bytesOf (m : Mode) (b1 b2 : Byte) : List Byte := [b1, b2].take m.operandBytes

/-- As many bytes as the mode has are the mode's operand bytes. -/
theorem Mode.bytesOf_operands {m : Mode} {bs : List Byte} (h : bs.length = m.operandBytes) :
    m.bytesOf (operand1 bs) (operand2 bs) = bs := by
  rw [Mode.bytesOf, ← h]
  match bs, h with
  | [], _ | [_], _ | [_, _], _ => rfl
  | _ :: _ :: _ :: _, h => cases m <;> simp [Mode.operandBytes] at h

/-- The decoder reads from `op` the instruction `i` exactly when the operand bytes of its table entry's mode follow, and
`i` is made of `op` and them (R70, R71, R73). -/
theorem decode_cons_eq_ok_iff {op : Byte} {bs rest : List Byte} {i : Instr} :
    decode (op :: bs) = .ok (i, rest) ↔ ∃ ops : List Byte, ops.length = (opEntry op).mode.operandBytes ∧
      ops ++ rest = bs ∧ instrOf op (operand1 ops) (operand2 ops) = i := by
  unfold decode
  dsimp only
  generalize (opEntry op).mode = m
  constructor
  · intro h
    split at h
    next hn => cases h; exact ⟨[], hn.symm, rfl, rfl⟩
    next b1 _ hn => cases h; exact ⟨[b1], hn.symm, rfl, rfl⟩
    next b1 b2 _ hn => cases h; exact ⟨[b1, b2], hn.symm, rfl, rfl⟩
    next => cases h
  · rintro ⟨ops, hlen, rfl, rfl⟩
    match ops, hlen with
    | [], hlen => rw [← hlen]; rfl
    | [b1], hlen => rw [← hlen]; rfl
    | [b1, b2], hlen => rw [← hlen]; rfl
    | _ :: _ :: _ :: _, hlen => cases m <;> simp [Mode.operandBytes] at hlen

/-! ### An operand is made again from its own bytes (R72) -/

theorem memOf_bytes (m : Mem) : memOf m.mode (operand1 m.bytes) (operand2 m.bytes) = some m := by
  cases m with
  | zp | zpx | zpy | indx | indy => rfl
  | abs w | absx w | absy w => exact congrArg (some ∘ _) (hiLo_hi8_lo8 w)

/-- The modes of a memory operand (R77 to R82, R84, R85). -/
def memModes : List Mode := [.zp, .zpx, .zpy, .abs, .absx, .absy, .indx, .indy]

theorem Mem.mode_mem (m : Mem) : m.mode ∈ memModes := by
  cases m <;> simp [Mem.mode, memModes]

theorem srcOf_of_mem {m : Mode} (h : m ∈ memModes) (b1 b2 : Byte) : srcOf m b1 b2 = (memOf m b1 b2).map .mem := by
  cases m with
  | imm => exact absurd h (by decide)
  | _ => rfl

theorem rmwOf_of_mem {m : Mode} (h : m ∈ memModes) (b1 b2 : Byte) : rmwOf m b1 b2 = (memOf m b1 b2).map .mem := by
  cases m with
  | acc => exact absurd h (by decide)
  | _ => rfl

theorem srcOf_bytes (o : Src) : srcOf o.mode (operand1 o.bytes) (operand2 o.bytes) = some o := by
  cases o with
  | imm v => rfl
  | mem m => exact (srcOf_of_mem m.mode_mem _ _).trans (congrArg (Option.map Src.mem) (memOf_bytes m))

theorem rmwOf_bytes (o : Rmw) : rmwOf o.mode (operand1 o.bytes) (operand2 o.bytes) = some o := by
  cases o with
  | acc => rfl
  | mem m => exact (rmwOf_of_mem m.mode_mem _ _).trans (congrArg (Option.map Rmw.mem) (memOf_bytes m))

theorem targetOf_bytes (t : Target) : targetOf t.mode (operand1 t.bytes) (operand2 t.bytes) = some t := by
  cases t with
  | abs w => exact congrArg (some ∘ Target.abs) (hiLo_hi8_lo8 w)
  | ind w => exact congrArg (some ∘ Target.ind) (hiLo_hi8_lo8 w)

/-- A legal instruction is the form that its mnemonic and mode make of its operand bytes. -/
theorem formOf_operandBytes {i : Instr} {e : OpEntry} (hkind : e.kind = i.mnemonic) (hmode : e.mode = i.mode)
    (hi : i.mnemonic ≠ .ILLEGAL) : formOf e (operand1 i.operandBytes) (operand2 i.operandBytes) = some i := by
  obtain ⟨kind, mode, base, crossing, isLegal⟩ := e
  subst hkind hmode
  cases i with
  | lda o | ldx o | ldy o | adc o | sbc o | cmp o | cpx o | cpy o | and o | ora o | eor o =>
    exact congrArg (Option.map _) (srcOf_bytes o)
  | sta m | stx m | sty m | bit m | inc m | dec m => exact congrArg (Option.map _) (memOf_bytes m)
  | asl o | lsr o | rol o | ror o => exact congrArg (Option.map _) (rmwOf_bytes o)
  | jmp t => exact congrArg (Option.map _) (targetOf_bytes t)
  | jsr w => exact congrArg (some ∘ Instr.jsr) (hiLo_hi8_lo8 w)
  | illegal op => exact absurd rfl hi
  | _ => rfl

/-! ### The operand bytes of an instruction are as many as its mode has (R70, R71) -/

theorem Mem.length_bytes (m : Mem) : m.bytes.length = m.mode.operandBytes := by
  cases m <;> rfl

theorem Src.length_bytes (o : Src) : o.bytes.length = o.mode.operandBytes := by
  cases o with
  | imm v => rfl
  | mem m => exact m.length_bytes

theorem Rmw.length_bytes (o : Rmw) : o.bytes.length = o.mode.operandBytes := by
  cases o with
  | acc => rfl
  | mem m => exact m.length_bytes

theorem Target.length_bytes (t : Target) : t.bytes.length = t.mode.operandBytes := by
  cases t <;> rfl

theorem Instr.length_operandBytes (i : Instr) : i.operandBytes.length = i.mode.operandBytes := by
  cases i with
  | lda o | ldx o | ldy o | adc o | sbc o | cmp o | cpx o | cpy o | and o | ora o | eor o => exact o.length_bytes
  | sta m | stx m | sty m | bit m | inc m | dec m => exact m.length_bytes
  | asl o | lsr o | rol o | ror o => exact o.length_bytes
  | jmp t => exact t.length_bytes
  | _ => rfl

/-! ### Every well-formed instruction has a row of the table (R73, R92, R93) -/

theorem tableRow (i : Instr) : Laws.TableRow.Statement i := by
  cases i with
  | lda o => exact Laws.TableRow.lda o
  | ldx o => exact Laws.TableRow.ldx o
  | ldy o => exact Laws.TableRow.ldy o
  | sta m => exact Laws.TableRow.sta m
  | stx m => exact Laws.TableRow.stx m
  | sty m => exact Laws.TableRow.sty m
  | adc o => exact Laws.TableRow.adc o
  | sbc o => exact Laws.TableRow.sbc o
  | cmp o => exact Laws.TableRow.cmp o
  | cpx o => exact Laws.TableRow.cpx o
  | cpy o => exact Laws.TableRow.cpy o
  | and o => exact Laws.TableRow.and o
  | ora o => exact Laws.TableRow.ora o
  | eor o => exact Laws.TableRow.eor o
  | bit m => exact Laws.TableRow.bit m
  | asl o => exact Laws.TableRow.asl o
  | lsr o => exact Laws.TableRow.lsr o
  | rol o => exact Laws.TableRow.rol o
  | ror o => exact Laws.TableRow.ror o
  | inc m => exact Laws.TableRow.inc m
  | dec m => exact Laws.TableRow.dec m
  | jmp t => exact Laws.TableRow.jmp t
  | illegal op => exact Laws.TableRow.illegal op
  | _ => exact fun _ => ⟨_, rfl, rfl, rfl, rfl⟩

theorem encode_of_opcode {i : Instr} {op : Byte} (h : i.opcode = some op) : encode i = op :: i.operandBytes := by
  rw [encode, h]

/-- An opcode without a legal entry decodes to itself as an illegal instruction, whatever follows (R93). -/
theorem instrOf_of_bad {op : Byte} (h : opEntry op = bad) (b1 b2 : Byte) : instrOf op b1 b2 = .illegal op := by
  rw [instrOf, h]
  rfl

/-- The opcode and the operand bytes of a well-formed instruction make it again (R73). -/
theorem instrOf_operandBytes {i : Instr} {op : Byte} (hi : i.wf = true) (hop : i.opcode = some op) :
    instrOf op (operand1 i.operandBytes) (operand2 i.operandBytes) = i ∧ (opEntry op).mode = i.mode := by
  obtain ⟨_, hop', hkind, hmode, -⟩ := tableRow i hi
  obtain rfl := Option.some.inj (hop.symm.trans hop')
  refine ⟨?_, hmode⟩
  by_cases hill : i.mnemonic = .ILLEGAL
  · cases i with
    | illegal op' =>
      cases hop
      exact instrOf_of_bad (Laws.TableRow.entry_of_illegal _ (List.contains_iff_mem.mp hi)) _ _
    | _ => cases hill
  · rw [instrOf, formOf_operandBytes hkind hmode hill]
    rfl

/-- Settles O1: the operand bytes are as many as the mode has, and they make the instruction again. -/
theorem decodeOfEncodeIsTheInstruction : Obligations.DecodeOfEncodeIsTheInstruction := by
  intro i rest hi
  obtain ⟨op, hop, -⟩ := tableRow i hi
  obtain ⟨hinstr, hmode⟩ := instrOf_operandBytes hi hop
  rw [encode_of_opcode hop]
  exact decode_cons_eq_ok_iff.mpr ⟨i.operandBytes, hmode ▸ i.length_operandBytes, rfl, hinstr⟩

/-! ### What the decoder makes of an opcode and its operand bytes -/

/-- The modes of each mnemonic: the filled cells of its row in the table of R92; none for an illegal opcode. -/
def Mnemonic.modes : Mnemonic → List Mode
  | .LDA | .ADC | .SBC | .CMP | .AND | .ORA | .EOR => eightModes
  | .LDX => [.imm, .zp, .zpy, .abs, .absy]
  | .LDY => [.imm, .zp, .zpx, .abs, .absx]
  | .STA => [.zp, .zpx, .abs, .absx, .absy, .indx, .indy]
  | .STX => [.zp, .zpy, .abs]
  | .STY => [.zp, .zpx, .abs]
  | .CPX | .CPY => [.imm, .zp, .abs]
  | .BIT => [.zp, .abs]
  | .ASL | .LSR | .ROL | .ROR => shiftModes
  | .INC | .DEC => incDecModes
  | .JMP => [.abs, .ind]
  | .JSR => [.abs]
  | .BCC | .BCS | .BEQ | .BNE | .BMI | .BPL | .BVC | .BVS => [.rel]
  | .ILLEGAL => []
  | .TAX | .TAY | .TXA | .TYA | .TSX | .TXS | .PHA | .PHP | .PLA | .PLP | .INX | .INY | .DEX | .DEY | .RTS
  | .CLC | .SEC | .CLI | .SEI | .CLV | .CLD | .SED | .NOP | .BRK | .RTI => [.impl]

/-- A form in a mode of its mnemonic is well formed. -/
theorem Instr.wf_of_mode_mem {i : Instr} (h : i.mode ∈ i.mnemonic.modes) : i.wf = true := by
  cases i with
  | illegal op => cases h
  | lda o | ldx o | ldy o | adc o | sbc o | cmp o | cpx o | cpy o | and o | ora o | eor o
  | sta o | stx o | sty o | bit o | inc o | dec o | asl o | lsr o | rol o | ror o => exact List.contains_iff_mem.mpr h
  | _ => rfl

/-- A legal entry has a mode of its mnemonic, and the encoder's table gives the opcode back (R91, R92). -/
theorem opEntry_of_legal : ∀ op : Byte, (opEntry op).legal = true →
    (opEntry op).mode ∈ (opEntry op).kind.modes ∧ opcode (opEntry op).kind (opEntry op).mode = some op := by
  decide +kernel

/-- Without a legal entry an opcode is on the list of R93, and its entry is the illegal one. -/
theorem opEntry_of_not_legal : ∀ op : Byte, (opEntry op).legal = false → opEntry op = bad ∧ op ∈ illegalOpcodes := by
  decide +kernel

theorem memOf_eq_some {m : Mode} (h : m ∈ memModes) (b1 b2 : Byte) :
    ∃ o, memOf m b1 b2 = some o ∧ o.mode = m ∧ o.bytes = m.bytesOf b1 b2 := by
  cases m with
  | zp | zpx | zpy | indx | indy => exact ⟨_, rfl, rfl, rfl⟩
  | abs | absx | absy =>
    exact ⟨_, rfl, rfl, congrArg₂ (fun lo hi => [lo, hi]) (lo8_hiLo b2 b1) (hi8_hiLo b2 b1)⟩
  | impl | acc | imm | ind | rel => exact absurd h (by decide)

theorem srcOf_eq_some {m : Mode} (h : m ∈ .imm :: memModes) (b1 b2 : Byte) :
    ∃ o, srcOf m b1 b2 = some o ∧ o.mode = m ∧ o.bytes = m.bytesOf b1 b2 := by
  rcases List.mem_cons.mp h with rfl | h
  · exact ⟨.imm b1, rfl, rfl, rfl⟩
  · obtain ⟨o, ho, hmode, hbytes⟩ := memOf_eq_some h b1 b2
    exact ⟨.mem o, by rw [srcOf_of_mem h, ho]; rfl, hmode, hbytes⟩

theorem rmwOf_eq_some {m : Mode} (h : m ∈ .acc :: memModes) (b1 b2 : Byte) :
    ∃ o, rmwOf m b1 b2 = some o ∧ o.mode = m ∧ o.bytes = m.bytesOf b1 b2 := by
  rcases List.mem_cons.mp h with rfl | h
  · exact ⟨.acc, rfl, rfl, rfl⟩
  · obtain ⟨o, ho, hmode, hbytes⟩ := memOf_eq_some h b1 b2
    exact ⟨.mem o, by rw [rmwOf_of_mem h, ho]; rfl, hmode, hbytes⟩

theorem targetOf_eq_some {m : Mode} (h : m ∈ [Mode.abs, .ind]) (b1 b2 : Byte) :
    ∃ o, targetOf m b1 b2 = some o ∧ o.mode = m ∧ o.bytes = m.bytesOf b1 b2 := by
  have hbytes : [lo8 (hiLo b2 b1), hi8 (hiLo b2 b1)] = [b1, b2] := by rw [lo8_hiLo, hi8_hiLo]
  rcases List.mem_pair.mp h with rfl | rfl <;> exact ⟨_, rfl, rfl, hbytes⟩

/-- `i` is the instruction of mnemonic `k` in mode `m` with the operand bytes of `b1`, `b2`. -/
structure IsForm (k : Mnemonic) (m : Mode) (b1 b2 : Byte) (i : Instr) : Prop where
  mnemonic : i.mnemonic = k
  mode : i.mode = m
  operandBytes : i.operandBytes = m.bytesOf b1 b2

/-- In a mode of the mnemonic the operand bytes make an instruction of that mnemonic and mode with those bytes. -/
theorem formOf_eq_some {e : OpEntry} (h : e.mode ∈ e.kind.modes) (b1 b2 : Byte) :
    ∃ i, formOf e b1 b2 = some i ∧ IsForm e.kind e.mode b1 b2 i := by
  obtain ⟨kind, mode, base, crossing, isLegal⟩ := e
  dsimp only at h ⊢
  cases kind with
  | LDA | LDX | LDY | ADC | SBC | CMP | CPX | CPY | AND | ORA | EOR =>
    obtain ⟨o, ho, hmode, hbytes⟩ := srcOf_eq_some (List.subset_def.mp (by decide) h) b1 b2
    exact ⟨_, congrArg (Option.map _) ho, rfl, hmode, hbytes⟩
  | STA | STX | STY | BIT | INC | DEC =>
    obtain ⟨o, ho, hmode, hbytes⟩ := memOf_eq_some (List.subset_def.mp (by decide) h) b1 b2
    exact ⟨_, congrArg (Option.map _) ho, rfl, hmode, hbytes⟩
  | ASL | LSR | ROL | ROR =>
    obtain ⟨o, ho, hmode, hbytes⟩ := rmwOf_eq_some (List.subset_def.mp (by decide) h) b1 b2
    exact ⟨_, congrArg (Option.map _) ho, rfl, hmode, hbytes⟩
  | JMP =>
    obtain ⟨o, ho, hmode, hbytes⟩ := targetOf_eq_some h b1 b2
    exact ⟨_, congrArg (Option.map _) ho, rfl, hmode, hbytes⟩
  | JSR =>
    obtain rfl := List.mem_singleton.mp h
    exact ⟨_, rfl, rfl, rfl, congrArg₂ (fun lo hi => [lo, hi]) (lo8_hiLo b2 b1) (hi8_hiLo b2 b1)⟩
  | ILLEGAL => cases h
  | _ =>
    obtain rfl := List.mem_singleton.mp h
    exact ⟨_, rfl, rfl, rfl, rfl⟩

theorem Instr.opcode_of_legal {i : Instr} (h : i.mnemonic ≠ .ILLEGAL) : i.opcode = Sys2Proof.opcode i.mnemonic i.mode := by
  cases i with
  | illegal op => exact absurd rfl h
  | _ => rfl

/-- Every opcode with any operand bytes is a well-formed instruction of its entry's mnemonic and mode, whose opcode and
operand bytes are those (R73, R93). -/
theorem instrOf_isForm (op b1 b2 : Byte) : (instrOf op b1 b2).wf = true ∧ (instrOf op b1 b2).opcode = some op ∧
    IsForm (opEntry op).kind (opEntry op).mode b1 b2 (instrOf op b1 b2) := by
  cases hl : (opEntry op).legal with
  | false =>
    obtain ⟨hbad, hmem⟩ := opEntry_of_not_legal op hl
    rw [instrOf_of_bad hbad, hbad]
    exact ⟨List.contains_iff_mem.mpr hmem, rfl, rfl, rfl, rfl⟩
  | true =>
    obtain ⟨hmem, hop⟩ := opEntry_of_legal op hl
    obtain ⟨i, hi, hform⟩ := formOf_eq_some hmem b1 b2
    have hinstr : instrOf op b1 b2 = i := by rw [instrOf, hi]; rfl
    rw [← hform.mnemonic, ← hform.mode] at hmem hop
    have hlegal : i.mnemonic ≠ .ILLEGAL := fun e => by rw [e] at hmem; cases hmem
    rw [hinstr]
    exact ⟨Instr.wf_of_mode_mem hmem, (Instr.opcode_of_legal hlegal).trans hop, hform⟩

/-- Settles O2: what is decoded is `instrOf` the opcode and the operand bytes, so `instrOf_isForm` says it all. -/
theorem encodeOfDecodeIsTheBytes : Obligations.EncodeOfDecodeIsTheBytes := by
  intro op bs rest i h
  obtain ⟨ops, hlen, rfl, rfl⟩ := decode_cons_eq_ok_iff.mp h
  obtain ⟨hwf, hop, hform⟩ := instrOf_isForm op (operand1 ops) (operand2 ops)
  have hencode : encode (instrOf op (operand1 ops) (operand2 ops)) = op :: ops := by
    rw [encode_of_opcode hop, hform.operandBytes, Mode.bytesOf_operands hlen]
  refine ⟨hwf, by rw [hencode]; rfl, ?_, hform.mnemonic, hform.mode, fun hl => ?_⟩
  · rw [hencode, List.length_cons, hlen, Nat.add_comm]
  · exact instrOf_of_bad (opEntry_of_not_legal op hl).1 _ _

/-- Settles O3: each word is decoded by evaluation. -/
theorem sampleWordsDecode : Obligations.SampleWordsDecode :=
  ⟨rfl, rfl, rfl, rfl, rfl, rfl, rfl, rfl, rfl, rfl⟩

end Sys2Proof
end

section
/-! The illegal opcodes at the step: the fetch that meets one is the whole step (R93, R231, R332). -/

namespace Sys2Proof.Machine

open Sys2Proof.Spec (counted delivered Boundary)

/-- With any fuel left the run from a settled state ends at once (R331). -/
theorem settle_of_settled {n : Nat} (hn : 0 < n) {s : State} (h : settled s = true) : settle n s = .next s := by
  obtain ⟨k, rfl⟩ := Nat.exists_eq_add_of_lt hn
  rw [settle, if_pos h]

/-- A tick that ends settled is the whole step (R331). -/
theorem step_of_tick {s t : State} (ht : tick s = .next t) (h : settled t = true) : step s = .next t := by
  rw [step, runToBoundary, ht, andThen_next]
  exact settle_of_settled (Nat.succ_pos _) h

/-- The PPU's part of a tick leaves the CPU settled. -/
theorem settled_ppuTick (s : State) : settled (ppuTick s) = settled s := by
  obtain ⟨q, pd, d, o, e⟩ := ppuTick_only s
  rw [e]
  rfl

/-- So does a bus read. -/
theorem settled_busRead (a : Word) (s : State) : settled (busRead a s).2 = settled s := by
  obtain ⟨q, d, e⟩ := busRead_only a s
  rw [e]
  rfl

theorem boundary_of_quiet {s : State} (h : QuietBoundary s) : Boundary s :=
  ⟨h.ntsc, h.notHalted, h.cycle, h.penalty, h.stall⟩

theorem delivered_of_quiet {s : State} (h : QuietBoundary s) : delivered s = s := by
  rw [← deliverInputs_eq_delivered, deliverInputs_none h.inputs]

/-- At a quiet boundary a tick fetches (R228, R332). -/
theorem tick_at_quietBoundary {s : State} (h : QuietBoundary s) :
    tick s = andThen (fetchCycle (counted s)) (fun t => .next (ppuTick t)) := by
  have hirq : s.pending.irq = false ∨ s.p.getLsbD 2 = true := flag_I_eq s.p ▸ h.irq
  have hreset : (counted s).pending.reset = false := h.reset
  rw [tick_at_boundary (boundary_of_quiet h), delivered_of_quiet h, boundaryCycle_masked (s := counted s) h.nmi hirq,
    hreset]
  rfl

/-- An opcode is on the list of R93 exactly when its entry is not legal. -/
theorem mem_illegalOpcodes_iff {op : Byte} : op ∈ illegalOpcodes ↔ (opEntry op).legal = false :=
  ⟨fun h => by rw [Laws.TableRow.entry_of_illegal op h]; rfl, fun h => (opEntry_of_not_legal op h).2⟩

/-- An illegal opcode fetched at a quiet boundary halts the CPU in one tick (R93, R332). -/
theorem step_of_illegal {s : State} (h : QuietBoundary s) (hop : (busRead s.pc (counted s)).1 ∈ illegalOpcodes) :
    step s = .next (ppuTick { (busRead s.pc (counted s)).2 with pc := s.pc + 1, halted := true }) := by
  have hlegal : (opEntry (busRead (counted s).pc (counted s)).1).legal = false := mem_illegalOpcodes_iff.mp hop
  have hcounted : settled (counted s) = true := settled_iff.mpr ⟨h.cycle, h.penalty, h.stall⟩
  have hread : settled (busRead s.pc (counted s)).2 = true := (settled_busRead _ _).trans hcounted
  refine step_of_tick ?_ ((settled_ppuTick _).trans hread)
  rw [tick_at_quietBoundary h, fetchCycle_eq, hlegal]
  rfl

/-- Settles O4: the table against the list of R93, and `step_of_illegal`. -/
theorem illegalOpcodesHalt : Obligations.IllegalOpcodesHalt :=
  ⟨rfl, by decide, fun _ => mem_illegalOpcodes_iff,
    fun op b1 b2 h => instrOf_of_bad (Laws.TableRow.entry_of_illegal op h) b1 b2, fun _ _ => rfl,
    fun _ => step_of_illegal⟩

end Sys2Proof.Machine
end

section
/-! The penalty cycles of an instruction: which operations charge none, when indexing and branching cross a page, and that
every decoded instruction charges what the rules give (R87, R174, R334). -/

namespace Sys2Proof.Machine

open Sys2Proof.Spec (crossed base index penalty branchPenalty)

/-- The mnemonics whose reads can cost a crossing cycle (R87). -/
def crossingMnemonics : List Mnemonic := [.LDA, .LDX, .LDY, .ADC, .SBC, .CMP, .AND, .ORA, .EOR]

/-- The modes in which they do (R87). -/
def crossingModes : List Mode := [.absx, .absy, .indy]

/-! ### Pages -/

/-- A page is named by the high byte of its addresses (00_scope.md section 6). -/
theorem page_eq_hiLo (w : Word) : page w = hiLo (hi8 w) 0 := by
  refine BitVec.eq_of_getLsbD_eq fun i hi => ?_
  rw [getLsbD_hiLo]
  interval_cases i <;> simp [page, hi8]

theorem page_eq_page_iff {v w : Word} : page v = page w ↔ v.toNat / 256 = w.toNat / 256 := by
  rw [page_eq_hiLo, page_eq_hiLo, ← toNat_hi8, ← toNat_hi8, BitVec.toNat_inj]
  exact ⟨fun h => by simpa using congrArg hi8 h, fun h => by rw [h]⟩

/-- An index that carries out of the low byte changes the page (R81, R82, R85). -/
theorem indexed_crossed (w : Word) (i : Byte) :
    (indexed w i).crossed = decide ((w.toNat + i.toNat) % 65536 / 256 ≠ w.toNat / 256) := by
  have hsum : (w + zext16 i).toNat = (w.toNat + i.toNat) % 65536 := by
    have := i.isLt
    rw [BitVec.toNat_add, zext16, BitVec.toNat_setWidth]
    omega
  rw [← hsum]
  simp only [indexed, bne, page_eq_page_iff, beq_eq_decide, decide_not]

theorem pointer_lt (s : State) (z : Nat) : Spec.pointer s z < 65536 := by
  have := (ramByte s ((z + 1) % 256)).isLt
  have := (ramByte s (z % 256)).isLt
  rw [Spec.pointer]
  omega

/-- The base address is an address (R77 to R85). -/
theorem base_lt (m : Mem) (s : State) : base m s < 65536 := by
  cases m with
  | zp b => exact Nat.lt_trans b.isLt (by decide)
  | zpx b | zpy b => exact Nat.lt_trans (Nat.mod_lt _ (by decide)) (by decide)
  | abs w | absx w | absy w => exact w.isLt
  | indx b | indy b => exact pointer_lt s _

/-- Without a last index nothing is crossed (R87). -/
theorem crossed_of_no_index {m : Mem} {s : State} (h : index m s = 0) : crossed m s = false := by
  have := base_lt m s
  rw [crossed, h, Nat.add_zero, Nat.mod_eq_of_lt this]
  simp

/-- The modes whose last index can cross a page (R81, R82, R85). -/
theorem mode_of_crossed {m : Mem} {s : State} (h : crossed m s = true) : m.mode ∈ crossingModes := by
  cases m with
  | absx | absy | indy => simp [Mem.mode, crossingModes]
  | zp | zpx | zpy | abs | indx => exact absurd (h.symm.trans (crossed_of_no_index rfl)) (by decide)

/-- The crossing of every mode is the one of the rules (R77 to R85). -/
theorem resolve_crossed (m : Mem) (s : State) : (resolve m s).1.crossed = crossed m s := by
  cases m with
  | zp | zpx | zpy | abs | indx => exact (crossed_of_no_index rfl).symm
  | absx w | absy w => exact indexed_crossed w _
  | indy b =>
    have hptr : (zeroPagePointer b s).1.toNat = Spec.pointer s b.toNat := by
      rw [zeroPagePointer_eq_pointer (Nat.mod_eq_of_lt b.isLt).symm, BitVec.toNat_ofNat,
        Nat.mod_eq_of_lt (pointer_lt s _)]
    simp only [resolve, indexed_crossed, hptr]
    rfl

/-! ### Branches -/

theorem flag_C_eq (p : Byte) : flag .C p = p.getLsbD 0 := flag_eq_getLsbD (f := .C) rfl (by decide) p

theorem flag_Z_eq (p : Byte) : flag .Z p = p.getLsbD 1 := flag_eq_getLsbD (f := .Z) rfl (by decide) p

theorem flag_V_eq (p : Byte) : flag .V p = p.getLsbD 6 := flag_eq_getLsbD (f := .V) rfl (by decide) p

theorem flag_N_eq (p : Byte) : flag .N p = p.getLsbD 7 := flag_eq_getLsbD (f := .N) rfl (by decide) p

/-- The target of a branch as the statements write it (R86). -/
theorem branchTarget_eq_ofInt (pc : Word) (off : Byte) : branchTarget pc off = BitVec.ofInt 16 (pc.toInt + off.toInt) := by
  have hoff : (sext16 off).toInt = off.toInt := BitVec.toInt_signExtend_of_le (by decide)
  rw [branchTarget, ← hoff, BitVec.ofInt_add, BitVec.ofInt_toInt, BitVec.ofInt_toInt]

/-- A branch charges the penalty of the rule (R174). -/
theorem branch_penaltyLeft {s : State} (hs : s.penaltyLeft = 0) (c : Bool) (off : Byte) :
    (branch c off s).penaltyLeft = branchPenalty c s.pc off := by
  cases c with
  | false => exact hs
  | true =>
    have hpage : page (branchTarget s.pc off) = page s.pc ↔
        (s.pc.toInt + off.toInt) % 65536 / 256 = (s.pc.toNat : Int) / 256 := by
      rw [page_eq_page_iff, branchTarget_eq_ofInt, BitVec.toNat_ofInt]
      omega
    simp only [branch, branchPenalty, hpage, if_true]

/-! ### Operations that charge no penalty -/

@[simp] theorem busRead_penaltyLeft (a : Word) (s : State) : (busRead a s).2.penaltyLeft = s.penaltyLeft := by
  obtain ⟨q, d, h⟩ := busRead_only a s
  rw [h]

@[simp] theorem busWrite_penaltyLeft (a : Word) (v : Byte) (s : State) :
    (busWrite a v s).penaltyLeft = s.penaltyLeft := by
  obtain ⟨r, q, pd, c, d, st, o, h⟩ := busWrite_only a v s
  rw [h]

@[simp] theorem busReadWord_penaltyLeft (a b : Word) (s : State) :
    (busReadWord a b s).2.penaltyLeft = s.penaltyLeft :=
  (busRead_penaltyLeft b _).trans (busRead_penaltyLeft a s)

@[simp] theorem push_penaltyLeft (v : Byte) (s : State) : (push v s).penaltyLeft = s.penaltyLeft := by
  rw [push_eq]

@[simp] theorem pushWord_penaltyLeft (w : Word) (s : State) : (pushWord w s).penaltyLeft = s.penaltyLeft := by
  rw [pushWord_eq]

@[simp] theorem pull_penaltyLeft (s : State) : (pull s).2.penaltyLeft = s.penaltyLeft := by
  rw [pull_eq]

@[simp] theorem pullWord_penaltyLeft (s : State) : (pullWord s).2.penaltyLeft = s.penaltyLeft := by
  rw [pullWord_eq]

@[simp] theorem takeException_penaltyLeft (status : Byte) (vec : Word) (s : State) :
    (takeException status vec s).penaltyLeft = s.penaltyLeft := by
  simp [takeException, loadVector]

@[simp] theorem returnFromException_penaltyLeft (s : State) :
    (returnFromException s).penaltyLeft = s.penaltyLeft := by
  rw [returnFromException_eq]

@[simp] theorem jumpTarget_penaltyLeft (t : Target) (s : State) : (jumpTarget t s).2.penaltyLeft = s.penaltyLeft := by
  cases t with
  | abs w => rfl
  | ind ptr => exact busReadWord_penaltyLeft _ _ s

/-- A store charges no crossing (R87, R103). -/
@[simp] theorem writeMem_penaltyLeft (m : Mem) (v : Byte) (s : State) : (writeMem m v s).penaltyLeft = s.penaltyLeft := by
  simp [writeMem, resolve_state]

/-- Nor does a read-modify-write (R87, R150). -/
@[simp] theorem modifyMem_penaltyLeft (m : Mem) (f : Byte → Byte → Byte × Byte) (s : State) :
    (modifyMem m f s).penaltyLeft = s.penaltyLeft := by
  simp [modifyMem, resolve_state]

@[simp] theorem modifyOperand_penaltyLeft (o : Rmw) (f : Byte → Byte → Byte × Byte) (s : State) :
    (modifyOperand o f s).penaltyLeft = s.penaltyLeft := by
  cases o with
  | acc => rfl
  | mem m => exact modifyMem_penaltyLeft m f s

/-! ### The penalty of an operand read -/

theorem readMem_penaltyLeft (m : Mem) (s : State) :
    (readMem m s).2.penaltyLeft = if crossed m s then 1 else s.penaltyLeft := by
  simp only [readMem, resolve_state, resolve_crossed, chargeCrossing]
  split
  · rfl
  · exact busRead_penaltyLeft _ s

/-- In the other modes a read charges nothing (R87). -/
theorem readMem_penaltyLeft_of_mode {m : Mem} (h : m.mode ∉ crossingModes) (s : State) :
    (readMem m s).2.penaltyLeft = s.penaltyLeft := by
  rw [readMem_penaltyLeft, if_neg fun hc => h (mode_of_crossed hc)]

theorem readSrc_penaltyLeft_of_mode {o : Src} (h : o.mode ∉ crossingModes) (s : State) :
    (readSrc o s).2.penaltyLeft = s.penaltyLeft := by
  cases o with
  | imm v => rfl
  | mem m => exact readMem_penaltyLeft_of_mode h s

/-! ### The penalty of an instruction -/

/-- Every well-formed instruction answers a next state with the penalty of the rules (R87, R174). -/
theorem exec_penaltyLeft {i : Instr} (hi : i.wf = true) {s : State} (hs : s.penaltyLeft = 0) :
    ∃ t, exec i s = .next t ∧ t.penaltyLeft = penalty i s := by
  cases i with
  | lda o | ldx o | ldy o | adc o | sbc o | cmp o | and o | ora o | eor o =>
    refine ⟨_, rfl, ?_⟩
    cases o with
    | imm v => exact hs
    | mem m => exact (readMem_penaltyLeft m s).trans (by rw [hs]; rfl)
  | cpx o | cpy o =>
    have hmode : o.mode ∉ crossingModes :=
      (by decide : ∀ m ∈ [Mode.imm, .zp, .abs], m ∉ crossingModes) _ (List.contains_iff_mem.mp hi)
    exact ⟨_, rfl, (readSrc_penaltyLeft_of_mode hmode s).trans hs⟩
  | bit m =>
    have hmode : m.mode ∉ crossingModes :=
      (by decide : ∀ k ∈ [Mode.zp, .abs], k ∉ crossingModes) _ (List.contains_iff_mem.mp hi)
    exact ⟨_, rfl, (readMem_penaltyLeft_of_mode hmode s).trans hs⟩
  | bcc off | bcs off | beq off | bne off | bmi off | bpl off | bvc off | bvs off =>
    refine ⟨_, rfl, (branch_penaltyLeft hs _ off).trans ?_⟩
    simp only [penalty, flag_C_eq, flag_Z_eq, flag_V_eq, flag_N_eq]
  | sta m | stx m | sty m => exact ⟨_, rfl, (writeMem_penaltyLeft m _ s).trans hs⟩
  | asl o | lsr o | rol o | ror o => exact ⟨_, rfl, (modifyOperand_penaltyLeft o _ s).trans hs⟩
  | inc m | dec m => exact ⟨_, rfl, (modifyMem_penaltyLeft m _ s).trans hs⟩
  | pha | php => exact ⟨_, rfl, (push_penaltyLeft _ s).trans hs⟩
  | pla | plp => exact ⟨_, rfl, (pull_penaltyLeft s).trans hs⟩
  | jmp o => exact ⟨_, rfl, (jumpTarget_penaltyLeft o s).trans hs⟩
  | jsr w => exact ⟨_, rfl, (pushWord_penaltyLeft _ s).trans hs⟩
  | rts => exact ⟨_, rfl, (pullWord_penaltyLeft s).trans hs⟩
  | brk => exact ⟨_, rfl, (takeException_penaltyLeft _ _ _).trans hs⟩
  | rti => exact ⟨_, rfl, (returnFromException_penaltyLeft s).trans hs⟩
  | _ => exact ⟨_, rfl, hs⟩

/-- The crossing-sensitive entries of the table (R87). -/
theorem opEntry_crossing_iff : ∀ op : Byte, (opEntry op).crossing = true ↔
    (opEntry op).kind ∈ crossingMnemonics ∧ (opEntry op).mode ∈ crossingModes := by
  decide +kernel

/-- Outside branches only those read instructions in those modes are charged (R87, R174). -/
theorem mem_crossing_of_penalty {i : Instr} {s : State} (hrel : i.mode ≠ .rel) (h : 0 < penalty i s) :
    i.mnemonic ∈ crossingMnemonics ∧ i.mode ∈ crossingModes := by
  cases i with
  | lda o | ldx o | ldy o | adc o | sbc o | cmp o | and o | ora o | eor o =>
    refine ⟨by simp [Instr.mnemonic, crossingMnemonics], ?_⟩
    cases o with
    | imm v => exact absurd h (Nat.lt_irrefl 0)
    | mem m =>
      refine mode_of_crossed (m := m) (s := s) ?_
      by_contra hc
      rw [penalty, if_neg hc] at h
      exact absurd h (Nat.lt_irrefl 0)
  | bcc | bcs | beq | bne | bmi | bpl | bvc | bvs => exact absurd rfl hrel
  | _ => exact absurd h (Nat.lt_irrefl 0)

/-- Settles O5: what is decoded is well formed with its entry's mnemonic and mode, and charges what the rules give. -/
theorem penaltyIsWhatTheTableAllows : Obligations.PenaltyIsWhatTheTableAllows := by
  refine ⟨opEntry_crossing_iff, fun op b1 b2 s hs => ?_⟩
  obtain ⟨hwf, -, hform⟩ := instrOf_isForm op b1 b2
  obtain ⟨t, ht, hp⟩ := exec_penaltyLeft hwf hs
  refine ⟨t, ht, hp, fun hrel hpos => ?_⟩
  rw [opEntry_crossing_iff, ← hform.mnemonic, ← hform.mode]
  exact mem_crossing_of_penalty (hform.mode ▸ hrel) (hp ▸ hpos)

end Sys2Proof.Machine
end

section
/-! Loads and stores: the opcode rows of a mnemonic from the encoder's table, the operand read and the store as the
statements write them, and the statements about LDA, LDX, LDY, STA, STX, STY (R87 to R89, R100 to R105). -/

namespace Sys2Proof.Machine

open Sys2Proof.Spec (Row Forms ea crossed operand)

/-! ### The opcode rows of a mnemonic -/

/-- An opcode of a mnemonic other than the illegal one is the encoder's, in one of the mnemonic's modes (R91, R92). -/
theorem opcode_of_opEntry_kind {k : Mnemonic} (hk : k ≠ .ILLEGAL) {op : Byte} (h : (opEntry op).kind = k) :
    ∃ m ∈ k.modes, opcode k m = some op := by
  cases hl : (opEntry op).legal with
  | false =>
    rw [(opEntry_of_not_legal op hl).1] at h
    exact absurd h.symm hk
  | true =>
    subst h
    exact ⟨_, opEntry_of_legal op hl⟩

/-- Rows that are entries of the table and hold every opcode the encoder has for the mnemonic are all its rows. -/
theorem forms_of_entries {k : Mnemonic} {rows : List Row}
    (hentry : ∀ r ∈ rows, opEntry r.2.1 = ⟨k, r.1, r.2.2.1, r.2.2.2, true⟩)
    (hall : k ≠ .ILLEGAL ∧ k.modes.filterMap (opcode k) ⊆ rows.map (fun r => r.2.1)) : Forms k rows :=
  ⟨hentry, fun _ hop => hall.2 (List.mem_filterMap.mpr (opcode_of_opEntry_kind hall.1 hop))⟩

/-! ### Operand reads and stores -/

/-- A byte read from memory, with its page-crossing cycle (R87, R88). -/
theorem readMem_eq (m : Mem) (s : State) :
    readMem m s = ((busRead (ea m s) s).1, chargeCrossing (crossed m s) (busRead (ea m s) s).2) := by
  simp only [readMem, resolve_state, resolve_ea, resolve_crossed]

/-- The operand read is the one of the statements (R76, R87, R88). -/
theorem readSrc_eq_operand (o : Src) (s : State) : readSrc o s = operand o s := by
  cases o with
  | imm v => rfl
  | mem m => exact readMem_eq m s

/-- A store is one bus write at the effective address; nothing else is done (R87, R89). -/
theorem writeMem_eq (m : Mem) (v : Byte) (s : State) : writeMem m v s = busWrite (ea m s) v s := by
  simp only [writeMem, resolve_state, resolve_ea]

/-- Reading an operand sets no flag (R88). -/
theorem operand_p (o : Src) (s : State) : (operand o s).2.p = s.p := by
  rw [← readSrc_eq_operand]
  cases o with
  | imm v => rfl
  | mem m =>
    obtain ⟨q, d, n, h⟩ := readMem_only m s
    rw [readSrc, h]

/-! ### The statements -/

/-- Settles O16: the operand read is `operand`, which keeps P, and the load's `setZN` is the masks of R17. -/
theorem loadsSetTheRegisterAndZN : Obligations.LoadsSetTheRegisterAndZN := by
  refine ⟨forms_of_entries (by decide) (by decide), forms_of_entries (by decide) (by decide),
    forms_of_entries (by decide) (by decide), fun o s => ?_⟩
  simp only [exec, execLda, execLdx, execLdy, loadA, loadX, loadY, readSrc_eq_operand, operand_p, setZN_eq_withZN,
    and_self]

/-- Settles O17: each store is `writeMem` of its register. -/
theorem storesWriteTheRegister : Obligations.StoresWriteTheRegister :=
  ⟨forms_of_entries (by decide) (by decide), forms_of_entries (by decide) (by decide),
    forms_of_entries (by decide) (by decide), fun m s =>
      ⟨congrArg _ (writeMem_eq m s.a s), congrArg _ (writeMem_eq m s.x s), congrArg _ (writeMem_eq m s.y s)⟩⟩

end Sys2Proof.Machine
end

section
/-! Transfers and the stack: the transfers as register loads, the stack instructions through what a push and a pull do, and
the statements about TAX to TXS and PHA to PLP (R13, R14, R110 to R115, R120 to R123). -/

namespace Sys2Proof.Machine

open Sys2Proof.Spec (stackCell withZN)

/-! ### Loads of a register, and pulls, in the terms of the statements -/

theorem loadA_eq_withZN (v : Byte) (s : State) : loadA v s = { s with a := v, p := withZN v s.p } := by
  rw [loadA, setZN_eq_withZN]

theorem loadX_eq_withZN (v : Byte) (s : State) : loadX v s = { s with x := v, p := withZN v s.p } := by
  rw [loadX, setZN_eq_withZN]

theorem loadY_eq_withZN (v : Byte) (s : State) : loadY v s = { s with y := v, p := withZN v s.p } := by
  rw [loadY, setZN_eq_withZN]

/-- PLA is a pull into A (R122). -/
theorem exec_pla (s : State) : exec .pla s = .next { s with
    a := ramByte s (stackCell (s.sp + 1)), sp := s.sp + 1, p := withZN (ramByte s (stackCell (s.sp + 1))) s.p } := by
  have h : exec .pla s = .next (loadA (pull s).1 (pull s).2) := rfl
  rw [h, loadA_eq_withZN, pull_eq]
  rfl

/-- PLP is a pull into P, where Unused reads as 1 whatever was pulled (R123). -/
theorem exec_plp (s : State) :
    exec .plp s = .next { s with sp := s.sp + 1, p := ramByte s (stackCell (s.sp + 1)) ||| 0x20 } := by
  have h : exec .plp s = .next { (pull s).2 with p := pulledStatus (pull s).1 } := rfl
  rw [h, pull_eq]
  rfl

/-! ### The statements -/

/-- Settles O18: every transfer but TXS is a load of its destination, so it sets Z and N as a load does. -/
theorem transfersCopyTheRegister : Obligations.TransfersCopyTheRegister :=
  ⟨forms_of_entries (by decide) (by decide), forms_of_entries (by decide) (by decide),
    forms_of_entries (by decide) (by decide), forms_of_entries (by decide) (by decide),
    forms_of_entries (by decide) (by decide), forms_of_entries (by decide) (by decide), fun s =>
      ⟨congrArg _ (loadX_eq_withZN s.a s), congrArg _ (loadY_eq_withZN s.a s), congrArg _ (loadA_eq_withZN s.x s),
        congrArg _ (loadA_eq_withZN s.y s), congrArg _ (loadX_eq_withZN s.sp s), rfl⟩⟩

/-- Settles O19: the stack page is RAM, so PHA and PHP are `push_eq` of their byte, and PLA and PLP read one RAM byte. -/
theorem stackInstructionsPushAndPull : Obligations.StackInstructionsPushAndPull :=
  ⟨forms_of_entries (by decide) (by decide), forms_of_entries (by decide) (by decide),
    forms_of_entries (by decide) (by decide), forms_of_entries (by decide) (by decide), fun s =>
      ⟨congrArg _ (push_eq s.a s), congrArg _ (push_eq (pushedBySoftware s.p) s), exec_pla s, exec_plp s⟩⟩

end Sys2Proof.Machine
end

section
/-! Arithmetic and compares: the flag updates as the masks of the statements, SBC as ADC of the complement, the overflow bit
as the signed outcome, and the statements about ADC, SBC, CMP, CPX, CPY (R130 to R136). -/

namespace Sys2Proof.Machine

open Sys2Proof.Spec (carry operand withZN withC withV)

/-! ### Flags in the terms of the statements -/

/-- Bit 0 of a status byte is the carry as a number. -/
theorem carryIn_eq_carry (p : Byte) : carryIn p = carry p := by
  rw [carryIn, flag_eq_getLsbD (f := .C) (i := 0) rfl (by decide), BitVec.getLsbD, Nat.testBit_zero, carry]
  have := Nat.mod_two_eq_zero_or_one p.toNat
  split <;> simp_all

theorem carry_le_one (p : Byte) : carry p ≤ 1 := Nat.le_of_lt_succ (Nat.mod_lt _ (by decide))

/-- Setting a flag clears its bit, then puts the new one there (R15). -/
theorem setFlag_eq_clear_or (f : Flag) (b : Bool) (p : Byte) :
    setFlag f b p = (p &&& ~~~f.mask) ||| (if b then f.mask else 0x00) := by
  cases b with
  | true =>
    refine BitVec.eq_of_getLsbD_eq fun i hi => ?_
    rw [getLsbD_setFlag hi, if_pos rfl, BitVec.getLsbD_or, BitVec.getLsbD_and, BitVec.getLsbD_not]
    cases f.mask.getLsbD i <;> simp [hi]
  | false => exact BitVec.or_zero.symm

theorem setFlag_C_eq_withC (b : Bool) (p : Byte) : setFlag .C b p = withC b p := setFlag_eq_clear_or .C b p

theorem setFlag_V_eq_withV (b : Bool) (p : Byte) : setFlag .V b p = withV b p := setFlag_eq_clear_or .V b p

theorem setSumFlags_eq (r : Sum) (p : Byte) :
    setSumFlags r p = withZN r.result (withV r.overflow (withC r.carry p)) := by
  rw [setSumFlags, setZN_eq_withZN, setFlag_V_eq_withV, setFlag_C_eq_withC]

/-- After ADC or SBC, bit 6 of P is the overflow. -/
theorem setSumFlags_bit_V (r : Sum) (p : Byte) : (setSumFlags r p).getLsbD 6 = r.overflow := by
  simp only [setSumFlags, setZN, getLsbD_setFlag (show 6 < 8 by decide)]
  rfl

/-- After ADC or SBC, bit 0 of P is the carry out. -/
theorem setSumFlags_bit_C (r : Sum) (p : Byte) : (setSumFlags r p).getLsbD 0 = r.carry := by
  simp only [setSumFlags, setZN, getLsbD_setFlag (show 0 < 8 by decide)]
  rfl

/-! ### The adder -/

/-- The low byte of an integer is the same for integers that differ by a multiple of 256. -/
theorem ofInt_eq_of_emod {i j : Int} (h : i % 256 = j % 256) : BitVec.ofInt 8 i = BitVec.ofInt 8 j :=
  BitVec.eq_of_toNat_eq (by rw [BitVec.toNat_ofInt, BitVec.toNat_ofInt]; exact congrArg Int.toNat h)

/-- SBC is ADC of the one's complement of the operand (R131). -/
theorem subWithBorrow_eq_addWithCarry (a m : Byte) (c : Nat) : subWithBorrow a m c = addWithCarry a (~~~m) c := by
  have hm : m ^^^ 0xFF = ~~~m := BitVec.xor_allOnes
  have hx : a ^^^ m = ~~~(a ^^^ ~~~m) := by rw [← BitVec.not_xor_right, BitVec.not_not]
  rw [subWithBorrow, addWithCarry, hm, hx]

theorem addWithCarry_overflow (a m : Byte) (c : Nat) :
    (addWithCarry a m c).overflow = (~~~(a ^^^ m) &&& (a ^^^ (addWithCarry a m c).result)).getLsbD 7 :=
  flag_eq_getLsbD (f := .N) rfl (by decide) _

theorem subWithBorrow_overflow (a m : Byte) (c : Nat) :
    (subWithBorrow a m c).overflow = ((a ^^^ m) &&& (a ^^^ (subWithBorrow a m c).result)).getLsbD 7 :=
  flag_eq_getLsbD (f := .N) rfl (by decide) _

/-- The sum with the complement is 256 more than the difference (R131). -/
theorem subWithBorrow_result (a m : Byte) (c : Nat) :
    (subWithBorrow a m c).result = BitVec.ofInt 8 (a.toNat - m.toNat - (1 - c)) := by
  have hm := m.isLt
  rw [subWithBorrow_eq_addWithCarry, addWithCarry, BitVec.toNat_not, ← BitVec.ofInt_natCast]
  exact ofInt_eq_of_emod (by omega)

/-- No borrow is a carry out of the sum with the complement (R131). -/
theorem subWithBorrow_carry (a m : Byte) (c : Nat) :
    (subWithBorrow a m c).carry = decide (0 ≤ (a.toNat - m.toNat - (1 - c) : Int)) := by
  have hm := m.isLt
  rw [subWithBorrow_eq_addWithCarry, addWithCarry, BitVec.toNat_not]
  exact decide_eq_decide.mpr (by omega)

/-- Overflow is that the operands have one sign and the result the other. -/
theorem addWithCarry_overflow_eq_msb (a m : Byte) (c : Nat) :
    (addWithCarry a m c).overflow = ((a.msb == m.msb) && (a.msb != (addWithCarry a m c).result.msb)) := by
  have hsigns : ∀ x y z : Bool, (!(x ^^ y) && (x ^^ z)) = ((x == y) && (x != z)) := by decide
  simp only [addWithCarry_overflow, BitVec.getLsbD_and, BitVec.getLsbD_not, BitVec.getLsbD_xor,
    BitVec.msb_eq_getLsbD_last]
  exact hsigns _ _ _

/-- The adder's overflow is a signed sum outside -128 to 127 (R135). -/
theorem addWithCarry_overflow_iff (a m : Byte) {c : Nat} (hc : c ≤ 1) :
    (addWithCarry a m c).overflow = true ↔ a.toInt + m.toInt + c < -128 ∨ 127 < a.toInt + m.toInt + c := by
  have ha := a.isLt
  have hm := m.isLt
  have hr : (addWithCarry a m c).result.toNat = (a.toNat + m.toNat + c) % 256 := BitVec.toNat_ofNat _ 8
  rw [addWithCarry_overflow_eq_msb, BitVec.toInt_eq_toNat_cond, BitVec.toInt_eq_toNat_cond]
  simp only [BitVec.msb_eq_decide, hr, Bool.and_eq_true, beq_iff_eq, bne_iff_ne, decide_eq_decide, ne_eq]
  split_ifs <;> omega

/-- The complement of a signed byte is one less than its negation. -/
theorem toInt_complement (m : Byte) : (~~~m).toInt = -m.toInt - 1 := by
  have hm := m.isLt
  rw [BitVec.toInt_eq_toNat_cond, BitVec.toInt_eq_toNat_cond, BitVec.toNat_not]
  split_ifs <;> omega

/-- The subtractor's overflow is a signed difference outside -128 to 127 (R135). -/
theorem subWithBorrow_overflow_iff (a m : Byte) {c : Nat} (hc : c ≤ 1) :
    (subWithBorrow a m c).overflow = true ↔
      a.toInt - m.toInt - (1 - c) < -128 ∨ 127 < a.toInt - m.toInt - (1 - c) := by
  rw [subWithBorrow_eq_addWithCarry, addWithCarry_overflow_iff a _ hc, toInt_complement]
  omega

/-- The comparison's flags are those of a difference without a borrow in, where V is not written (R132 to R134). -/
theorem setCompare_eq (r m p : Byte) :
    setCompare r m p =
      withZN (BitVec.ofInt 8 ((r.toNat : Int) - m.toNat)) (withC (decide (m.toNat ≤ r.toNat)) p) := by
  have hsub : r - m = BitVec.ofInt 8 ((r.toNat : Int) - m.toNat) := by
    have hm := m.isLt
    refine BitVec.eq_of_toNat_eq ?_
    rw [BitVec.toNat_sub, BitVec.toNat_ofInt]
    omega
  rw [setCompare, setZN_eq_withZN, setFlag_C_eq_withC, hsub]

/-! ### The instructions -/

/-- Reading an operand loads no register (R88). -/
theorem operand_effect (o : Src) (s : State) : Effect (Instr.writes .nop) s (operand o s).2 :=
  readSrc_eq_operand o s ▸ readSrc_effect o s

theorem operand_a (o : Src) (s : State) : (operand o s).2.a = s.a := (operand_effect o s).a rfl

theorem operand_x (o : Src) (s : State) : (operand o s).2.x = s.x := (operand_effect o s).x rfl

theorem operand_y (o : Src) (s : State) : (operand o s).2.y = s.y := (operand_effect o s).y rfl

/-- ADC is the adder on the old A and the operand, with the old carry (R130). -/
theorem exec_adc (o : Src) (s : State) :
    exec (.adc o) s = .next { (operand o s).2 with
      a := (addWithCarry s.a (operand o s).1 (carry s.p)).result
      p := setSumFlags (addWithCarry s.a (operand o s).1 (carry s.p)) s.p } := by
  simp only [exec, execAdc, storeSum, readSrc_eq_operand, operand_p, operand_a, carryIn_eq_carry]

/-- SBC is the subtractor on the old A and the operand, with the old carry (R131). -/
theorem exec_sbc (o : Src) (s : State) :
    exec (.sbc o) s = .next { (operand o s).2 with
      a := (subWithBorrow s.a (operand o s).1 (carry s.p)).result
      p := setSumFlags (subWithBorrow s.a (operand o s).1 (carry s.p)) s.p } := by
  simp only [exec, execSbc, storeSum, readSrc_eq_operand, operand_p, operand_a, carryIn_eq_carry]

/-! ### The statements -/

/-- Settles O21: ADC is the adder (`exec_adc`), whose byte is the sum modulo 256 and whose V is the document's formula. -/
theorem adcAddsWithCarry : Obligations.AdcAddsWithCarry := by
  refine ⟨forms_of_entries (by decide) (by decide), fun o s => ?_⟩
  have hr : (addWithCarry s.a (operand o s).1 (carry s.p)).result =
      BitVec.ofNat 8 ((s.a.toNat + (operand o s).1.toNat + carry s.p) % 256) :=
    BitVec.eq_of_toNat_eq (by simp [addWithCarry])
  rw [exec_adc, setSumFlags_eq, addWithCarry_overflow, hr]
  rfl

/-- Settles O22: SBC is the subtractor (`exec_sbc`), whose byte and carry out are those of the difference. -/
theorem sbcSubtractsWithBorrow : Obligations.SbcSubtractsWithBorrow := by
  refine ⟨forms_of_entries (by decide) (by decide), fun o s => ?_⟩
  rw [exec_sbc, setSumFlags_eq, subWithBorrow_overflow, subWithBorrow_result, subWithBorrow_carry]

/-- Settles O23: C and V are the adder's carry out and overflow, and SBC adds the complement. -/
theorem overflowIsTheSignedOutcome : Obligations.OverflowIsTheSignedOutcome := by
  intro o s
  have hc := carry_le_one s.p
  refine ⟨⟨_, exec_adc o s, ?_, ?_⟩, ⟨_, exec_sbc o s, ?_, ?_⟩⟩
  · rw [setSumFlags_bit_V]
    exact addWithCarry_overflow_iff s.a _ hc
  · rw [setSumFlags_bit_C]
    exact decide_eq_true_iff
  · rw [setSumFlags_bit_V]
    exact subWithBorrow_overflow_iff s.a _ hc
  · rw [setSumFlags_bit_C, subWithBorrow_carry, decide_eq_true_iff]
    omega

/-- Settles O24: the compared register is the one before the operand read, and `setCompare` is the masks of the rules. -/
theorem comparesSetCarryZN : Obligations.ComparesSetCarryZN := by
  refine ⟨forms_of_entries (by decide) (by decide), forms_of_entries (by decide) (by decide),
    forms_of_entries (by decide) (by decide), fun o s => ?_⟩
  simp only [exec, execCmp, execCpx, execCpy, readSrc_eq_operand, operand_p, operand_a, operand_x, operand_y,
    setCompare_eq, and_self]

end Sys2Proof.Machine
end

section
/-! The Decimal flag: no instruction but PHP and BRK, which push P, lets bit 3 of P show (R136). -/

namespace Sys2Proof.Machine

theorem sameButDecimal_iff {s t : State} : Spec.SameButDecimal s t ↔ SameBut 0xF7 s t := by
  constructor
  · rintro ⟨ht, hp⟩
    exact ⟨t.p, ht, hp.symm⟩
  · rintro ⟨q, rfl, hq⟩
    exact ⟨rfl, hq.symm⟩

/-- Settles O60: every instruction answers a next state (`exec_effect`), and no flag test reads bit 3 of P
(`exec_same`). -/
theorem decimalFlagChangesNoResult : Obligations.DecimalFlagChangesNoResult := by
  intro i s t h hphp hbrk
  obtain ⟨s', hs', -⟩ := exec_effect i s
  obtain ⟨t', ht', -⟩ := exec_effect i t
  have hst := exec_same (sameButDecimal_iff.mp h) rfl i fun hi => (hi.elim hphp hbrk).elim
  rw [hs', ht'] at hst
  exact ⟨s', t', hs', ht', sameButDecimal_iff.mpr hst⟩

end Sys2Proof.Machine
end

section
/-! Logic and bit test: BIT's flag update as the masks of the statement, and the statements about AND, ORA, EOR, BIT
(R140 to R143). -/

namespace Sys2Proof.Machine

/-- BIT takes N and V from their own bits of the operand and Z from the AND, and keeps the other flags of P (R143). -/
theorem setBitTest_eq (a m p : Byte) :
    setBitTest a m p = (p &&& 0x3D) ||| (m &&& 0xC0) ||| (if a &&& m = 0x00 then 0x02 else 0x00) := by
  refine BitVec.eq_of_getLsbD_eq fun i hi => ?_
  have hz : (if a &&& m = 0x00 then 0x02 else 0x00 : Byte).getLsbD i = (Flag.Z.mask.getLsbD i && a &&& m == 0) := by
    by_cases h : a &&& m = 0x00
    · simp [h, Flag.mask]
    · rw [if_neg h, beq_eq_false_iff_ne.mpr h, Bool.and_false]
      exact BitVec.getLsbD_zero
  simp only [setBitTest, getLsbD_setFlag hi, BitVec.getLsbD_or, BitVec.getLsbD_and, hz]
  interval_cases i <;> simp [Flag.mask, bitAt]

/-- Settles O25: each is a load of A with the operation of the old A and the operand. -/
theorem logicOperatesOnTheAccumulator : Obligations.LogicOperatesOnTheAccumulator := by
  refine ⟨forms_of_entries (by decide) (by decide), forms_of_entries (by decide) (by decide),
    forms_of_entries (by decide) (by decide), fun o s => ?_⟩
  simp only [exec, execAnd, execOra, execEor, readSrc_eq_operand, loadA_eq_withZN, operand_a, operand_p, and_self]

/-- Settles O26: BIT is an operand read, which keeps A and P, and then `setBitTest`, which is the masks of R143. -/
theorem bitTestsTheOperand : Obligations.BitTestsTheOperand := by
  refine ⟨forms_of_entries (by decide) (by decide), fun m s => ?_⟩
  have hread : readMem m s = Spec.operand (.mem m) s := readSrc_eq_operand (.mem m) s
  simp only [exec, execBit, hread, operand_a, operand_p, setBitTest_eq]

end Sys2Proof.Machine
end

section
/-! Shifts, increments and decrements: the read-modify-write of the model as the one of the statements, the shifts and
counts in natural-number arithmetic, and the statements about ASL to ROR and INC to DEY (R150 to R160). -/

namespace Sys2Proof.Machine

open Sys2Proof.Spec (carry withZN withC readModifyWrite)

/-! ### Read-modify-write -/

/-- A bus read sets no flag (R40, R55). -/
theorem busRead_p (a : Word) (s : State) : (busRead a s).2.p = s.p := by
  obtain ⟨q, d, h⟩ := busRead_only a s
  rw [h]

/-- The model's read-modify-write is the statements' one, for a function that gives `u` and `g` at the P of the state
(R150). -/
theorem modifyMem_eq_readModifyWrite {f : Byte → Byte → Byte × Byte} {u : Byte → Byte} {g : Byte → Byte → Byte}
    {s : State} (h : ∀ old, f old s.p = (u old, g old s.p)) (m : Mem) :
    modifyMem m f s = readModifyWrite m u g s := by
  simp only [modifyMem, readModifyWrite, resolve_state, resolve_ea, busRead_p, h]

/-! ### The shifted byte and the bit shifted out -/

theorem bitAt_seven (b : Byte) : bitAt b 7 = decide (128 ≤ b.toNat) := by
  rw [bitAt, ← BitVec.msb_eq_getLsbD_last, BitVec.msb_eq_decide]

theorem bitAt_zero (b : Byte) : bitAt b 0 = decide (b.toNat % 2 = 1) := by
  rw [bitAt, BitVec.getLsbD, Nat.testBit_zero]

theorem toNat_shiftLeft_one (b : Byte) : (b <<< 1).toNat = b.toNat * 2 % 256 := by
  rw [BitVec.toNat_shiftLeft, Nat.shiftLeft_eq]

theorem toNat_shiftRight_one (b : Byte) : (b >>> 1).toNat = b.toNat / 2 := by
  rw [BitVec.toNat_ushiftRight, Nat.shiftRight_eq_div_pow]

/-- ASL doubles the byte modulo 256, and bit 7 goes to the carry (R151). -/
theorem shiftLeft_eq (old : Byte) (c : Bool) :
    shiftLeft old c = ⟨BitVec.ofNat 8 (old.toNat * 2 % 256), decide (128 ≤ old.toNat)⟩ := by
  rw [shiftLeft, bitAt_seven, ← toNat_shiftLeft_one, BitVec.ofNat_toNat, BitVec.setWidth_eq]

/-- LSR halves the byte, and bit 0 goes to the carry (R152). -/
theorem shiftRight_eq (old : Byte) (c : Bool) :
    shiftRight old c = ⟨BitVec.ofNat 8 (old.toNat / 2), decide (old.toNat % 2 = 1)⟩ := by
  rw [shiftRight, bitAt_zero, ← toNat_shiftRight_one, BitVec.ofNat_toNat, BitVec.setWidth_eq]

/-- A rotate puts the carry in at the bit `k`, which the shifted byte `x` has free, so the bit is added. -/
theorem or_carryBit {x k : Byte} (h : x &&& k = 0) (p : Byte) :
    (x ||| if flag .C p then k else 0x00) = BitVec.ofNat 8 (x.toNat + k.toNat * carry p) := by
  rw [← carryIn_eq_carry, carryIn]
  split
  · simp [← BitVec.add_eq_or_of_and_eq_zero _ _ h, BitVec.ofNat_add]
  · simp

/-- ROL doubles the byte modulo 256 and puts the carry in bit 0 (R153). -/
theorem rotateLeft_eq (old p : Byte) :
    rotateLeft old (flag .C p) = ⟨BitVec.ofNat 8 (old.toNat * 2 % 256 + carry p), decide (128 ≤ old.toNat)⟩ := by
  have hfree : old <<< 1 &&& 0x01 = 0 := by
    ext i hi
    cases i <;> simp
  have hk : (0x01 : Byte).toNat * carry p = carry p := Nat.one_mul _
  rw [rotateLeft, or_carryBit hfree, toNat_shiftLeft_one, hk, bitAt_seven]

/-- ROR halves the byte and puts the carry in bit 7 (R154). -/
theorem rotateRight_eq (old p : Byte) :
    rotateRight old (flag .C p) =
      ⟨BitVec.ofNat 8 (old.toNat / 2 + 128 * carry p), decide (old.toNat % 2 = 1)⟩ := by
  have hfree : old >>> 1 &&& 0x80 = 0 := by
    ext i hi
    interval_cases i <;> simp
  rw [rotateRight, or_carryBit hfree, toNat_shiftRight_one, bitAt_zero]
  rfl

/-! ### The instructions -/

/-- What a shift does on the accumulator and on memory, by the byte `u` and the carry out `c` of its function: Z and N of
the new byte, C, and no other flag (R150 to R154). -/
theorem modifyOperand_shiftStep {f : Byte → Bool → Shifted} {u : Byte → Byte} {c : Byte → Bool} {s : State}
    (h : ∀ old, f old (flag .C s.p) = ⟨u old, c old⟩) :
    modifyOperand .acc (shiftStep f) s = { s with a := u s.a, p := withZN (u s.a) (withC (c s.a) s.p) } ∧
      ∀ m, modifyOperand (.mem m) (shiftStep f) s =
        readModifyWrite m u (fun old p => withZN (u old) (withC (c old) p)) s := by
  have hstep (old : Byte) : shiftStep f old s.p = (u old, withZN (u old) (withC (c old) s.p)) := by
    rw [shiftStep, h, setShiftFlags, setZN_eq_withZN, setFlag_C_eq_withC]
  refine ⟨?_, fun m => modifyMem_eq_readModifyWrite hstep m⟩
  rw [modifyOperand, hstep]

/-- INC and DEC add `delta` and set Z and N of the sum (R155, R156). -/
theorem modifyMem_countStep {delta : Byte} {u : Byte → Byte} (h : ∀ old, old + delta = u old) (m : Mem) (s : State) :
    modifyMem m (countStep delta) s = readModifyWrite m u (fun old p => withZN (u old) p) s :=
  modifyMem_eq_readModifyWrite (fun old => by rw [countStep, setZN_eq_withZN, h]) m

theorem add_one_eq (b : Byte) : b + 0x01 = BitVec.ofNat 8 ((b.toNat + 1) % 256) :=
  BitVec.eq_of_toNat_eq (by simp)

/-- One less modulo 256 is 255 more. -/
theorem add_allOnes_eq (b : Byte) : b + 0xFF = BitVec.ofNat 8 ((b.toNat + 255) % 256) :=
  BitVec.eq_of_toNat_eq (by simp)

theorem sub_one_eq (b : Byte) : b - 0x01 = BitVec.ofNat 8 ((b.toNat + 255) % 256) := by
  rw [← add_allOnes_eq, BitVec.sub_eq_add_neg]
  rfl

/-! ### The statements -/

/-- Settles O27: each is a `shiftStep`, whose byte and carry out are those of the rules in natural-number arithmetic. -/
theorem shiftsRotateThroughCarry : Obligations.ShiftsRotateThroughCarry := by
  refine ⟨forms_of_entries (by decide) (by decide), forms_of_entries (by decide) (by decide),
    forms_of_entries (by decide) (by decide), forms_of_entries (by decide) (by decide), fun s => ?_⟩
  obtain ⟨haslA, haslM⟩ := modifyOperand_shiftStep (s := s) (shiftLeft_eq · _)
  obtain ⟨hlsrA, hlsrM⟩ := modifyOperand_shiftStep (s := s) (shiftRight_eq · _)
  obtain ⟨hrolA, hrolM⟩ := modifyOperand_shiftStep (s := s) (rotateLeft_eq · s.p)
  obtain ⟨hrorA, hrorM⟩ := modifyOperand_shiftStep (s := s) (rotateRight_eq · s.p)
  exact ⟨congrArg _ haslA, congrArg _ hlsrA, congrArg _ hrolA, congrArg _ hrorA, fun m =>
    ⟨congrArg _ (haslM m), congrArg _ (hlsrM m), congrArg _ (hrolM m), congrArg _ (hrorM m)⟩⟩

/-- Settles O28: INC and DEC are a `countStep`, and the register forms are loads of the register plus or minus one. -/
theorem incrementsAndDecrements : Obligations.IncrementsAndDecrements := by
  refine ⟨forms_of_entries (by decide) (by decide), forms_of_entries (by decide) (by decide),
    forms_of_entries (by decide) (by decide), forms_of_entries (by decide) (by decide),
    forms_of_entries (by decide) (by decide), forms_of_entries (by decide) (by decide), fun s =>
      ⟨fun m => ⟨congrArg _ (modifyMem_countStep add_one_eq m s), congrArg _ (modifyMem_countStep add_allOnes_eq m s)⟩,
        ?_⟩⟩
  simp only [exec, execInx, execIny, execDex, execDey, loadX_eq_withZN, loadY_eq_withZN, add_one_eq, sub_one_eq, and_self]

end Sys2Proof.Machine
end

section
/-! Control transfer: the jump target read through the pointer, the stack words of JSR and RTS, and a branch, in the terms of
the statements, and the statements about JMP, JSR, RTS and the eight branches (R83, R170 to R182). -/

namespace Sys2Proof.Machine

open Sys2Proof.Spec (stackCell branchPenalty branched)

/-! ### Words made of two bytes -/

/-- Two bytes as a word, the high byte's part first, as the statements write it (R43). -/
theorem hiLo_eq_ofNat_hi_add_lo (hi lo : Byte) : hiLo hi lo = BitVec.ofNat 16 (hi.toNat * 256 + lo.toNat) := by
  rw [hiLo_eq_ofNat, Nat.mul_comm, Nat.add_comm]

/-- A word read through two addresses: the low byte's first, the high byte's in the state that read leaves (R83). -/
theorem busReadWord_eq_ofNat (a b : Word) (s : State) :
    let lo := busRead a s
    let hi := busRead b lo.2
    busReadWord a b s = (BitVec.ofNat 16 (hi.1.toNat * 256 + lo.1.toNat), hi.2) :=
  Prod.ext (hiLo_eq_ofNat_hi_add_lo _ _) rfl

/-! ### The instructions -/

/-- JMP indirect is a word read whose second address stays in the pointer's page (R171, R83). -/
theorem exec_jmp_ind (w : Word) (s : State) :
    let r := busReadWord w (BitVec.ofNat 16 (w.toNat / 256 * 256 + (w.toNat + 1) % 256)) s
    exec (.jmp (.ind w)) s = .next { r.2 with pc := r.1 } := by
  rw [← jumpPointerHigh_eq]
  rfl

/-- JSR stores two stack bytes, the high one first (R172). -/
theorem exec_jsr_eq (w : Word) (s : State) : exec (.jsr w) s = .next { s with
    ram := (s.ram.store none (stackCell s.sp) (hi8 (s.pc - 1))).store none (stackCell (s.sp - 1)) (lo8 (s.pc - 1))
    sp := s.sp - 2
    pc := w } := by
  rw [exec_jsr, pushWord_eq]
  rfl

/-- RTS reads two stack bytes, the low one first, and adds the one that JSR left out (R173). -/
theorem exec_rts_eq (s : State) : exec .rts s = .next { s with
    sp := s.sp + 2
    pc := BitVec.ofNat 16
      ((ramByte s (stackCell (s.sp + 2))).toNat * 256 + (ramByte s (stackCell (s.sp + 1))).toNat + 1) } := by
  rw [exec_rts, pullWord_eq, hiLo_eq_ofNat_hi_add_lo, BitVec.ofNat_add _ 1]
  rfl

/-- The common branch rule (R174) in signed arithmetic on PC. -/
theorem branch_eq_branched (c : Bool) (off : Byte) (s : State) : branch c off s = branched c off s := by
  cases c with
  | false => rfl
  | true =>
    have hpenalty : (branch true off s).penaltyLeft = branchPenalty true s.pc off :=
      branch_penaltyLeft (s := { s with penaltyLeft := 0 }) rfl true off
    calc branch true off s
      _ = { s with pc := branchTarget s.pc off, penaltyLeft := (branch true off s).penaltyLeft } := rfl
      _ = branched true off s := by rw [hpenalty, branchTarget_eq_ofInt]; rfl

/-! ### The statements -/

/-- Settles O29: the indirect form reads the word at the pointer, its high byte at the address R83 gives. -/
theorem jumpsLoadPc : Obligations.JumpsLoadPc := by
  refine ⟨forms_of_entries (by decide) (by decide), fun w s => ⟨rfl, ?_⟩⟩
  rw [exec_jmp_ind, busReadWord_eq_ofNat]

/-- Settles O30: JSR is `pushWord` of PC - 1, and RTS is one more than `pullWord`. -/
theorem subroutineCallAndReturn : Obligations.SubroutineCallAndReturn :=
  ⟨forms_of_entries (by decide) (by decide), forms_of_entries (by decide) (by decide), exec_jsr_eq, exec_rts_eq⟩

/-- Settles O31: each of the eight is `branch` on its flag or the flag's complement, and the flag is the bit of R15. -/
theorem branchesTestOneFlag : Obligations.BranchesTestOneFlag := by
  refine ⟨forms_of_entries (by decide) (by decide), forms_of_entries (by decide) (by decide),
    forms_of_entries (by decide) (by decide), forms_of_entries (by decide) (by decide),
    forms_of_entries (by decide) (by decide), forms_of_entries (by decide) (by decide),
    forms_of_entries (by decide) (by decide), forms_of_entries (by decide) (by decide), fun off s => ?_⟩
  simp only [← branch_eq_branched, ← flag_C_eq, ← flag_Z_eq, ← flag_V_eq, ← flag_N_eq]
  exact ⟨rfl, rfl, rfl, rfl, rfl, rfl, rfl, rfl⟩

end Sys2Proof.Machine
end

section
/-! Flag instructions and the system instructions: the exception sequence and the return from it in the terms of the
statements, and the statements about CLC to SED, NOP, BRK, RTI and the halt (R93, R190 to R207). -/

namespace Sys2Proof.Machine

open Sys2Proof.Spec (stackCell entered)

/-! ### BRK and RTI in the terms of the statements -/

/-- The exception sequence: the three pushes are stack bytes in RAM, and the vector is read in the state they leave
(R205, R226). -/
theorem takeException_eq_entered (status : Byte) (vec : Word) (s : State) :
    takeException status vec s = entered status vec s := by
  have hpushed : push status (pushWord s.pc s) = { s with
      ram := ((s.ram.store none (stackCell s.sp) (hi8 s.pc)).store none (stackCell (s.sp - 1)) (lo8 s.pc)).store none
        (stackCell (s.sp - 2)) status
      sp := s.sp - 3 } := by
    simp only [push_eq, pushWord_eq, BitVec.sub_sub]
    rfl
  rw [takeException, hpushed, loadVector, busReadWord_eq_ofNat]
  rfl

/-- BRK enters the exception sequence from past the signature byte, which is not read (R205). -/
theorem exec_brk_eq (s : State) :
    exec .brk s = .next (entered (s.p ||| 0x30) 0xFFFE { s with pc := s.pc + 1 }) := by
  have h : exec .brk s = .next (takeException (s.p ||| 0x30) 0xFFFE { s with pc := s.pc + 1 }) := rfl
  rw [h, takeException_eq_entered]

/-- RTI reads three stack bytes: P, then PC, its low byte first (R206). -/
theorem exec_rti_eq (s : State) : exec .rti s = .next { s with
    p := ramByte s (stackCell (s.sp + 1)) ||| 0x20
    pc := BitVec.ofNat 16
      ((ramByte s (stackCell (s.sp + 3))).toNat * 256 + (ramByte s (stackCell (s.sp + 2))).toNat)
    sp := s.sp + 3 } := by
  have h : exec .rti s = .next (returnFromException s) := rfl
  rw [h, returnFromException_eq, hiLo_eq_ofNat_hi_add_lo]
  rfl

/-! ### The halt -/

/-- The illegal mnemonic is that of the illegal opcodes alone (R93). -/
theorem Instr.mnemonic_eq_illegal_iff {i : Instr} : i.mnemonic = .ILLEGAL ↔ ∃ op, i = .illegal op := by
  constructor
  · intro h
    cases i with
    | illegal op => exact ⟨op, rfl⟩
    | _ => cases h
  · rintro ⟨op, rfl⟩
    rfl

/-! ### The statements -/

/-- Settles O33: BRK is the sequence `entered` from past the signature byte, and RTI is `returnFromException` in stack
bytes. -/
theorem brkAndRti : Obligations.BrkAndRti :=
  ⟨forms_of_entries (by decide) (by decide), forms_of_entries (by decide) (by decide), fun s =>
    ⟨exec_brk_eq s, exec_rti_eq s⟩⟩

/-- Settles O35: every instruction answers a next state, which keeps `halted` unless the instruction is an illegal opcode
(`exec_effect`), and an illegal opcode sets it. -/
theorem onlyIllegalOpcodesHalt : Obligations.OnlyIllegalOpcodesHalt := by
  intro i s
  by_cases hill : ∃ op, i = .illegal op
  · obtain ⟨op, rfl⟩ := hill
    exact ⟨{ s with halted := true }, rfl, iff_of_true rfl (.inr ⟨op, rfl⟩)⟩
  · obtain ⟨t, ht, e⟩ := exec_effect i s
    have hkept : t.halted = s.halted := e.halted (beq_false_of_ne (mt Instr.mnemonic_eq_illegal_iff.mp hill))
    exact ⟨t, ht, by rw [hkept, or_iff_left hill]⟩

/-- Settles O32: setting a flag is the OR of its mask and clearing it is the AND of the mask's complement (R15). -/
theorem flagInstructionsWriteOneFlag : Obligations.FlagInstructionsWriteOneFlag :=
  ⟨forms_of_entries (by decide) (by decide), forms_of_entries (by decide) (by decide),
    forms_of_entries (by decide) (by decide), forms_of_entries (by decide) (by decide),
    forms_of_entries (by decide) (by decide), forms_of_entries (by decide) (by decide),
    forms_of_entries (by decide) (by decide), forms_of_entries (by decide) (by decide), fun _ =>
      ⟨rfl, rfl, rfl, rfl, rfl, rfl, rfl, rfl⟩⟩

end Sys2Proof.Machine
end

section
/-! RTI after an exception entry: the three stack bytes the entry stored are the ones RTI reads (R205, R206, R230). -/

namespace Sys2Proof.Machine

open Sys2Proof.Spec (stackCell entered)

/-- The state in which the exception sequence reads its vector: PC and the status byte on the stack, P.I set (R226). -/
def stacked (status : Byte) (s : State) : State := { s with
  ram := ((s.ram.store none (stackCell s.sp) (hi8 s.pc)).store none (stackCell (s.sp - 1)) (lo8 s.pc)).store none
    (stackCell (s.sp - 2)) status
  sp := s.sp - 3
  p := s.p ||| 0x04 }

/-- The exception sequence is the vector's two reads from there, low byte first (R226, R233). -/
theorem entered_eq_stacked (status : Byte) (vec : Word) (s : State) :
    let lo := busRead vec (stacked status s)
    let hi := busRead (vec + 1) lo.2
    entered status vec s = { hi.2 with pc := BitVec.ofNat 16 (hi.1.toNat * 256 + lo.1.toNat) } := rfl

/-- So from there it changes PC and what a read may change (R55). -/
theorem entered_only (status : Byte) (vec : Word) (s : State) :
    ∃ q d w, entered status vec s = { stacked status s with ppu := q, draws := d, pc := w } := by
  obtain ⟨q, d, h⟩ := (busRead_only vec (stacked status s)).trans (busRead_only (vec + 1) _)
  rw [entered_eq_stacked, h]
  exact ⟨q, d, _, rfl⟩

theorem stackCell_inj {a b : Byte} : stackCell a = stackCell b ↔ a = b := by
  rw [stackCell, stackCell, Nat.add_left_cancel_iff, BitVec.toNat_inj]

/-- The entry leaves the status byte, PC's low byte and PC's high byte above the new SP (R226). -/
theorem ramByte_entered (status : Byte) (vec : Word) (s : State) :
    ramByte (entered status vec s) (stackCell (s.sp - 2)) = status ∧
    ramByte (entered status vec s) (stackCell (s.sp - 1)) = lo8 s.pc ∧
    ramByte (entered status vec s) (stackCell s.sp) = hi8 s.pc := by
  have h21 : s.sp - 2 ≠ s.sp - 1 := by bv_omega
  have h20 : s.sp - 2 ≠ s.sp := by bv_omega
  have h10 : s.sp - 1 ≠ s.sp := by bv_omega
  obtain ⟨q, d, w, e⟩ := entered_only status vec s
  simp only [e, stacked, ramByte, Memory.find_store_none, stackCell_inj, h21, h20, h10, if_true, if_false, Option.getD_some,
    and_self]

/-- RTI right after an exception entry takes back the pushed status byte, PC and SP (R230). -/
theorem exec_rti_entered (status : Byte) (vec : Word) (s : State) :
    exec .rti (entered status vec s) =
      .next { entered status vec s with p := status ||| 0x20, pc := s.pc, sp := s.sp } := by
  obtain ⟨hstatus, hlo, hhi⟩ := ramByte_entered status vec s
  have hsp : (entered status vec s).sp = s.sp - 3 := by
    obtain ⟨q, d, w, e⟩ := entered_only status vec s
    rw [e, stacked]
  have h1 : s.sp - 3 + 1 = s.sp - 2 := by bv_omega
  have h2 : s.sp - 3 + 2 = s.sp - 1 := by bv_omega
  have h3 : s.sp - 3 + 3 = s.sp := BitVec.sub_add_cancel _ _
  rw [exec_rti_eq, hsp, h1, h2, h3, hstatus, hlo, hhi, ← hiLo_eq_ofNat_hi_add_lo, hiLo_hi8_lo8]

/-- RTI of the byte NMI and IRQ pushed (R206, R226). -/
theorem pulledStatus_pushedByInterrupt {p : Byte} (h : flag .U p = true) :
    pulledStatus (pushedByInterrupt p) = p &&& 0xEF := by
  rw [flag_eq_getLsbD (f := .U) (i := 5) rfl (by decide)] at h
  refine BitVec.eq_of_getLsbD_eq fun i hi => ?_
  interval_cases i <;> simp [pulledStatus, pushedByInterrupt, h]

/-- Settles O34: `exec_rti_entered`, and for the byte of NMI and IRQ `pulledStatus_pushedByInterrupt`. -/
theorem rtiUndoesAnEntry : Obligations.RtiUndoesAnEntry := fun status vec s =>
  ⟨⟨_, exec_rti_entered status vec s, rfl, rfl, rfl⟩,
    fun hu => ⟨_, exec_rti_entered _ vec s, rfl, rfl, pulledStatus_pushedByInterrupt hu⟩⟩

end Sys2Proof.Machine
end

section
/-! The step at a boundary that takes an interrupt or a pending Reset: one accepting tick, and for NMI and IRQ the idle
ticks and the entry sequence after it (R226, R227, R331, R337). -/

namespace Sys2Proof.Machine

open Sys2Proof.Spec (counted delivered cpuReinitialised Boundary entered idleTick interruptTaken)

/-! ### Ticks of the run -/

/-- With no host request to come none is delivered. -/
theorem delivered_of_no_inputs {s : State} (h : s.inputs = []) : delivered s = s := by
  rw [← deliverInputs_eq_delivered, deliverInputs_none h]

/-- From an unsettled state the run makes a tick and goes on (R331). -/
theorem settle_of_tick {n : Nat} {s t : State} (hs : settled s = false) (ht : tick s = .next t) :
    settle (n + 1) s = settle n t := by
  rw [settle, if_neg (by simp [hs]), ht, andThen_next]

/-! ### The entry sequence -/

/-- The interrupts with an entry sequence, and the vector each loads (R226, R233). -/
def HasVector (kind : Current) (vec : Word) : Prop :=
  kind = .nmi ∧ vec = nmiVector ∨ kind = .irq ∧ vec = irqVector

/-- Both vectors are read from the cartridge (R51, R233). -/
theorem HasVector.cart {kind : Current} {vec : Word} (h : HasVector kind vec) :
    0x4020 ≤ vec.toNat ∧ 0x4020 ≤ (vec + 1).toNat := by
  rcases h with ⟨-, rfl⟩ | ⟨-, rfl⟩ <;> decide

theorem HasVector.innerCycle {kind : Current} {vec : Word} (h : HasVector kind vec) {s : State}
    (hs : s.current = some kind) : innerCycle s = entryCycle vec s := by
  rcases h with ⟨rfl, rfl⟩ | ⟨rfl, rfl⟩
  · exact innerCycle_of_nmi hs
  · exact innerCycle_of_irq hs

/-- A cartridge read does not see the sequencing fields. -/
theorem readMapped_sequencing (w : Option (Nat × MemoryKind)) (k : Nat) (c : Option Current) (s : State) :
    readMapped w { s with instructionCycle := k, current := c } =
      ((readMapped w s).1, { (readMapped w s).2 with instructionCycle := k, current := c }) := by
  rcases w with _ | ⟨off, kind⟩ <;> rfl

/-- Nor does the exception sequence through a vector in the cartridge. -/
theorem entered_sequencing {vec : Word} (hlo : 0x4020 ≤ vec.toNat) (hhi : 0x4020 ≤ (vec + 1).toNat) (status : Byte)
    (k : Nat) (c : Option Current) (s : State) :
    entered status vec { s with instructionCycle := k, current := c } =
      { entered status vec s with instructionCycle := k, current := c } := by
  have h : stacked status { s with instructionCycle := k, current := c } =
      { stacked status s with instructionCycle := k, current := c } := rfl
  simp only [entered_eq_stacked, h, busRead_cart hlo, busRead_cart hhi, readMapped_sequencing]

/-- The vector reads leave the CPU settled. -/
theorem settled_entered (status : Byte) (vec : Word) (s : State) : settled (entered status vec s) = settled s := by
  obtain ⟨q, d, w, e⟩ := entered_only status vec s
  rw [e]
  rfl

/-! ### The cycles of an entry -/

/-- Cycle `k` of the entry of `kind` is done, and no host request is to come (R337). -/
structure InEntry (kind : Current) (k : Nat) (s : State) : Prop where
  ntsc : s.timingMode = .ntsc
  notHalted : s.halted = false
  penalty : s.penaltyLeft = 0
  stall : s.dmaStall = 0
  inputs : s.inputs = []
  current : s.current = some kind
  cycle : s.instructionCycle = k

section
variable {kind : Current} {vec : Word} {k : Nat} {s : State}

/-- Cycle 1, whatever the latch then holds. -/
theorem inEntry_of_boundary (hb : Boundary s) (hi : s.inputs = []) (kind : Current) (pd : Pending) :
    InEntry kind 1 { counted s with pending := pd, current := some kind, instructionCycle := 1 } :=
  ⟨hb.ntsc, hb.notHalted, hb.penalty, hb.stall, hi, rfl, rfl⟩

theorem InEntry.after_ppuTick (h : InEntry kind k s) : InEntry kind k (ppuTick s) := by
  obtain ⟨q, pd, d, o, e⟩ := ppuTick_only s
  rw [e]
  exact { h with }

theorem InEntry.after_idleTick (h : InEntry kind k s) : InEntry kind (k + 1) (idleTick s) :=
  InEntry.after_ppuTick { h with cycle := congrArg (· + 1) h.cycle }

theorem InEntry.not_settled (h : InEntry kind k s) (hk : k ≠ 0) : settled s = false :=
  Bool.eq_false_iff.mpr fun hs => hk (h.cycle ▸ (settled_iff.mp hs).1)

/-- Inside an entry the CPU's part of the tick is a cycle of the entry (R330, R337). -/
theorem InEntry.tick_eq (h : InEntry kind k s) (hv : HasVector kind vec) (hk : k ≠ 0) :
    tick s = andThen (entryCycle vec (counted s)) (fun t => .next (ppuTick t)) := by
  rw [tick_of_ntsc h.ntsc, delivered_of_no_inputs h.inputs,
    cpuTick_of_no_stall (s := { s with masterCycle := s.masterCycle + 1 }) h.stall,
    cpuCycle_of_inner (s := { s with masterCycle := s.masterCycle + 1 }) h.notHalted h.penalty (h.cycle ▸ hk),
    hv.innerCycle (s := { s with masterCycle := s.masterCycle + 1, totalCycles := s.totalCycles + 1 }) h.current]
  rfl

/-- Before its last cycle an entry only counts (R337). -/
theorem InEntry.tick_idle (h : InEntry kind k s) (hv : HasVector kind vec) (hk : k ≠ 0) (hlast : k + 1 ≠ entryCycles) :
    tick s = .next (idleTick s) := by
  have hne : (counted s).instructionCycle + 1 ≠ entryCycles := h.cycle.symm ▸ hlast
  rw [h.tick_eq hv hk, entryCycle, if_neg hne]
  rfl

/-- Its last cycle runs the exception sequence with the byte of R226 (R337). -/
theorem InEntry.tick_last (h : InEntry kind k s) (hv : HasVector kind vec) (hlast : k + 1 = entryCycles) :
    tick s = .next (ppuTick (entered (((counted s).p &&& 0xEF) ||| 0x20) vec
      { counted s with instructionCycle := 0, current := none })) := by
  have hk : k ≠ 0 := by rintro rfl; exact absurd hlast (by decide)
  have he : (counted s).instructionCycle + 1 = entryCycles := h.cycle.symm ▸ hlast
  rw [h.tick_eq hv hk, entryCycle, if_pos he, takeException_eq_entered, ← entered_sequencing hv.cart.1 hv.cart.2]
  rfl

theorem InEntry.after_idleTicks (h : InEntry kind k s) (n : Nat) : InEntry kind (k + n) (Nat.iterate idleTick n s) := by
  induction n generalizing k s with
  | zero => exact h
  | succ n ih => exact Nat.add_right_comm k n 1 ▸ ih h.after_idleTick

/-- The idle cycles of an entry in the run to the next boundary (R331, R337). -/
theorem InEntry.settle_idle {n : Nat} (h : InEntry kind k s) (hv : HasVector kind vec) (hk : k ≠ 0)
    (hn : k + n < entryCycles) (m : Nat) : settle (m + n) s = settle m (Nat.iterate idleTick n s) := by
  induction n generalizing k s with
  | zero => rfl
  | succ n ih =>
    rw [← Nat.add_assoc, settle_of_tick (h.not_settled hk) (h.tick_idle hv hk (by omega))]
    exact ih h.after_idleTick (Nat.succ_ne_zero k) (by omega)

/-- The last cycle ends the run: the exception sequence leaves no stall and no penalty. -/
theorem InEntry.settle_last (h : InEntry kind k s) (hv : HasVector kind vec) (hlast : k + 1 = entryCycles) (m : Nat) :
    settle (m + 1 + 1) s = .next (ppuTick (entered (((counted s).p &&& 0xEF) ||| 0x20) vec
      { counted s with instructionCycle := 0, current := none })) := by
  have hk : k ≠ 0 := by rintro rfl; exact absurd hlast (by decide)
  have hdone : settled { counted s with instructionCycle := 0, current := none } = true :=
    settled_iff.mpr ⟨rfl, h.penalty, h.stall⟩
  rw [settle_of_tick (h.not_settled hk) (h.tick_last hv hlast)]
  exact settle_of_settled (Nat.succ_pos m) (by rw [settled_ppuTick, settled_entered, hdone])

/-- Once a tick has accepted the interrupt, the step is its whole entry (R337). -/
theorem step_of_accepted (hv : HasVector kind vec) {u : State}
    (h : InEntry kind 1 { u with current := some kind, instructionCycle := 1 })
    (ht : tick s = .next (ppuTick { u with current := some kind, instructionCycle := 1 })) :
    step s = .next (interruptTaken vec kind u) := by
  have hfuel : settleFuel s = s.dmaStall + s.penaltyLeft + 593 + 1 + 1 + 5 := rfl
  have h1 := h.after_ppuTick
  rw [step, runToBoundary, ht, andThen_next, hfuel, h1.settle_idle hv (by decide) (by decide),
    (h1.after_idleTicks 5).settle_last hv rfl]
  rfl

end

/-! ### The statements -/

/-- Settles O10: O11 gives the accepting tick, `step_of_accepted` the rest of the entry. -/
theorem interruptsAreTakenAtABoundary : Obligations.InterruptsAreTakenAtABoundary := by
  intro s hb hi
  obtain ⟨-, -, hlatch⟩ := interruptPriorityAtABoundary s
  obtain ⟨hnmi, hirq, -, -⟩ := hlatch hb
  rw [delivered_of_no_inputs hi] at hnmi hirq
  exact ⟨fun hn => step_of_accepted (.inl ⟨rfl, rfl⟩) (inEntry_of_boundary hb hi _ _) (hnmi hn),
    fun hn hq hp => step_of_accepted (.inr ⟨rfl, rfl⟩) (inEntry_of_boundary hb hi _ _) (hirq hn hq hp)⟩

/-- The CPU reset leaves the CPU between two instructions; the stall alone is the Timing Coordinator's (R227, R320). -/
theorem settled_cpuReinitialised {s : State} (h : s.dmaStall = 0) : settled (cpuReinitialised s) = true :=
  ((settled_busRead _ _).trans (settled_busRead _ _)).trans (settled_iff.mpr ⟨rfl, rfl, h⟩)

/-- Settles O12: O11 gives the tick, which is the whole step since it ends settled. -/
theorem pendingResetReinitialisesTheCpu : Obligations.PendingResetReinitialisesTheCpu := by
  intro s hb d hn hi hr
  obtain ⟨-, -, hlatch⟩ := interruptPriorityAtABoundary s
  obtain ⟨-, -, hreset, -⟩ := hlatch hb
  exact step_of_tick (hreset hn hi hr) ((settled_ppuTick _).trans (settled_cpuReinitialised hb.stall))

end Sys2Proof.Machine
end

section
/-! The PPU's registers on the bus, one equation per register, and the statements about them (R273 to R283). -/

namespace Sys2Proof.Machine

open Sys2Proof.Spec (ea crossed operand)

/-! ### The registers by address (R274) -/

theorem busWrite_ppuCtrl (v : Byte) (s : State) : busWrite 0x2000 v s = writePpuCtrl v s :=
  busWrite_ppu (by decide) (by decide) v s

theorem busWrite_ppuMask (v : Byte) (s : State) : busWrite 0x2001 v s = writePpuMask v s :=
  busWrite_ppu (by decide) (by decide) v s

theorem busWrite_ppuStatus (v : Byte) (s : State) : busWrite 0x2002 v s = s :=
  busWrite_ppu (by decide) (by decide) v s

theorem busWrite_oamAddr (v : Byte) (s : State) : busWrite 0x2003 v s = writeOamAddr v s :=
  busWrite_ppu (by decide) (by decide) v s

theorem busWrite_oamData (v : Byte) (s : State) : busWrite 0x2004 v s = writeOamData v s :=
  busWrite_ppu (by decide) (by decide) v s

theorem busWrite_ppuScroll (v : Byte) (s : State) : busWrite 0x2005 v s = writePpuScroll v s :=
  busWrite_ppu (by decide) (by decide) v s

theorem busWrite_ppuAddr (v : Byte) (s : State) : busWrite 0x2006 v s = writePpuAddr v s :=
  busWrite_ppu (by decide) (by decide) v s

theorem busWrite_ppuData (v : Byte) (s : State) : busWrite 0x2007 v s = writePpuData v s :=
  busWrite_ppu (by decide) (by decide) v s

theorem busRead_ppuStatus (s : State) : busRead 0x2002 s = readPpuStatus s := busRead_ppu (by decide) (by decide) s

theorem busRead_oamData (s : State) : busRead 0x2004 s = readOamData s := busRead_ppu (by decide) (by decide) s

theorem busRead_ppuData (s : State) : busRead 0x2007 s = readPpuData s := busRead_ppu (by decide) (by decide) s

/-! ### PPUCTRL, PPUSTATUS, OAM -/

/-- Settles O48: the write's condition is the three bits, and the request sets the latch bit it may already have set. -/
theorem ppuCtrlWriteRaisesNmi : Obligations.PpuCtrlWriteRaisesNmi := by
  intro val s
  have hedge : (!s.ppu.ctrl.getLsbD 7 && val.getLsbD 7 && s.ppu.status.getLsbD 7) =
    (!nmiEnabled s.ppu.ctrl && nmiEnabled val && vblankFlag s.ppu.status) := rfl
  rw [busWrite_ppuCtrl, hedge]
  cases h : !nmiEnabled s.ppu.ctrl && nmiEnabled val && vblankFlag s.ppu.status with
  | true => simp [writePpuCtrl, h, requestInterrupt, Pending.request]
  | false => simp [writePpuCtrl, h]

/-- Settles O49: the read is `readPpuStatus`, and LDA absolute loads what it reads. -/
theorem ppuStatusReadClearsVBlank : Obligations.PpuStatusReadClearsVBlank := by
  intro s
  have hread : busRead 0x2002 s = (s.ppu.status &&& 0xE0,
      { s with ppu := { s.ppu with status := s.ppu.status &&& 0x7F, w := false } }) := busRead_ppuStatus s
  refine ⟨hread, ?_⟩
  obtain ⟨-, -, -, hload⟩ := loadsSetTheRegisterAndZN
  obtain ⟨hlda, -, -⟩ := hload (.mem (.abs 0x2002)) s
  have hcross : crossed (.abs 0x2002) s = false := crossed_of_no_index rfl
  have hea : ea (.abs 0x2002) s = 0x2002 := rfl
  rw [hlda, operand, hea, hcross, hread]
  rfl

/-- OAM read after a write to it (R279). -/
theorem oamByte_oamWrite (k j : Nat) (v : Byte) (s : State) :
    oamByte (oamWrite k v s) j = if k = j then v else oamByte s j := by
  simp only [oamByte, oamWrite, Memory.find_store_none]
  split <;> rfl

/-- Settles O50: each access is its register's operation; a store through OAMDATA is read after write in OAM. -/
theorem oamRegistersAndMask : Obligations.OamRegistersAndMask := by
  intro val s
  refine ⟨busWrite_ppuMask val s, busWrite_ppuStatus val s, busWrite_oamAddr val s, busRead_oamData s, ?_⟩
  rw [busWrite_oamData, ← add_one_eq]
  refine ⟨rfl, fun k => ?_⟩
  simp only [eq_comm (a := k)]
  exact oamByte_oamWrite s.ppu.oamAddr.toNat k val s

/-! ### PPUSCROLL and PPUADDR -/

/-- The low byte of a VRAM address kept, and six bits put above it (R281). -/
theorem ppuAddr_high (t : VAddr) (hi : Byte) : (t &&& 0x00FF#15) ||| ((hi &&& 0x3F).setWidth 15 <<< 8) =
    BitVec.ofNat 15 (t.toNat % 256 + hi.toNat % 64 * 256) := by
  have hlow : (t &&& 0x00FF#15).toNat = t.toNat % 256 := Nat.and_two_pow_sub_one_eq_mod t.toNat 8
  have hmask : (hi &&& 0x3F).toNat = hi.toNat % 64 := Nat.and_two_pow_sub_one_eq_mod hi.toNat 6
  have hdisjoint : (t &&& 0x00FF#15) &&& ((hi &&& 0x3F).setWidth 15 <<< 8) = 0#15 := by
    refine BitVec.eq_of_getLsbD_eq fun i hi' => ?_
    interval_cases i <;> simp
  apply BitVec.eq_of_toNat_eq
  rw [← BitVec.add_eq_or_of_and_eq_zero _ _ hdisjoint, BitVec.toNat_add, hlow, BitVec.toNat_shiftLeft,
    BitVec.toNat_setWidth, hmask, Nat.shiftLeft_eq, BitVec.toNat_ofNat]
  omega

/-- The high bits of a VRAM address kept, and a byte put below them (R281). -/
theorem ppuAddr_low (t : VAddr) (lo : Byte) : (t &&& 0x7F00#15) ||| lo.setWidth 15 =
    BitVec.ofNat 15 (t.toNat / 256 * 256 + lo.toNat) := by
  have hhigh : t &&& 0x7F00#15 = t >>> 8 <<< 8 := by
    refine BitVec.eq_of_getLsbD_eq fun i hi => ?_
    interval_cases i <;> simp
  have hdisjoint : (t >>> 8 <<< 8) &&& lo.setWidth 15 = 0#15 := by
    refine BitVec.eq_of_getLsbD_eq fun i hi => ?_
    interval_cases i <;> simp
  have := t.isLt
  have := lo.isLt
  apply BitVec.eq_of_toNat_eq
  rw [hhigh, ← BitVec.add_eq_or_of_and_eq_zero _ _ hdisjoint, BitVec.toNat_add, BitVec.toNat_shiftLeft,
    BitVec.toNat_ushiftRight, Nat.shiftRight_eq_div_pow, Nat.shiftLeft_eq, BitVec.toNat_setWidth, BitVec.toNat_ofNat]
  omega

theorem writePpuScroll_first {s : State} (h : s.ppu.w = false) (v : Byte) :
    writePpuScroll v s = { s with ppu := { s.ppu with scrollX := v, w := true } } :=
  if_neg (by simp [h])

theorem writePpuScroll_second {s : State} (h : s.ppu.w = true) (v : Byte) :
    writePpuScroll v s = { s with ppu := { s.ppu with scrollY := v, w := false } } :=
  if_pos h

theorem writePpuAddr_first {s : State} (h : s.ppu.w = false) (v : Byte) : writePpuAddr v s = { s with
    ppu := { s.ppu with t := BitVec.ofNat 15 (s.ppu.t.toNat % 256 + v.toNat % 64 * 256), w := true } } := by
  rw [← ppuAddr_high]
  exact if_neg (by simp [h])

theorem writePpuAddr_second {s : State} (h : s.ppu.w = true) (v : Byte) : writePpuAddr v s = { s with
    ppu := { s.ppu with
      t := BitVec.ofNat 15 (s.ppu.t.toNat / 256 * 256 + v.toNat)
      v := BitVec.ofNat 15 (s.ppu.t.toNat / 256 * 256 + v.toNat)
      w := false } } := by
  rw [← ppuAddr_low]
  exact if_pos h

/-- After the pair the address is made of its two bytes: nothing of the old `t` is left (R281). -/
theorem writePpuAddr_pair {s : State} (h : s.ppu.w = false) (hi lo : Byte) :
    writePpuAddr lo (writePpuAddr hi s) = { s with ppu := { s.ppu with
      t := BitVec.ofNat 15 (hi.toNat % 64 * 256 + lo.toNat)
      v := BitVec.ofNat 15 (hi.toNat % 64 * 256 + lo.toNat) } } := by
  have hsum : (BitVec.ofNat 15 (s.ppu.t.toNat % 256 + hi.toNat % 64 * 256)).toNat / 256 * 256 = hi.toNat % 64 * 256 := by
    rw [BitVec.toNat_ofNat]
    omega
  rw [writePpuAddr_first h, writePpuAddr_second rfl]
  dsimp only
  rw [hsum, ← h]

/-- Settles O51: the toggle chooses between the first and the second write of both registers. -/
theorem scrollAndAddressShareTheToggle : Obligations.ScrollAndAddressShareTheToggle := by
  intro hi lo s
  simp only [busWrite_ppuScroll, busWrite_ppuAddr]
  exact ⟨fun h => ⟨writePpuScroll_first h hi, writePpuAddr_first h hi, writePpuAddr_pair h hi lo⟩,
    fun h => ⟨writePpuScroll_second h lo, writePpuAddr_second h lo⟩⟩

/-! ### PPUDATA -/

/-- The VRAM address after a PPUDATA access (R282). -/
def nextV (s : State) : VAddr :=
  BitVec.ofNat 15 ((s.ppu.v.toNat + if s.ppu.ctrl.getLsbD 2 then 32 else 1) % 0x8000)

theorem add_vramStep (s : State) : s.ppu.v + vramStep s.ppu.ctrl = nextV s := by
  have hstep : (vramStep s.ppu.ctrl).toNat = if s.ppu.ctrl.getLsbD 2 then 32 else 1 := by
    rw [vramStep, bitAt]
    split_ifs <;> rfl
  apply BitVec.eq_of_toNat_eq
  rw [BitVec.toNat_add, hstep, nextV, BitVec.toNat_ofNat, Nat.mod_mod]

/-- After an access that leaves `v` and PPUCTRL the address is advanced as before it. -/
theorem advanceV_eq {s t : State} (hv : t.ppu.v = s.ppu.v) (hc : t.ppu.ctrl = s.ppu.ctrl) :
    advanceV t = { t with ppu := { t.ppu with v := nextV s } } := by
  rw [advanceV, hv, hc, add_vramStep]

/-- A PPU bus write changes no PPU register (R57). -/
theorem ppuWrite_registers (a : Nat) (v : Byte) (s : State) :
    (ppuWrite a v s).ppu.v = s.ppu.v ∧ (ppuWrite a v s).ppu.ctrl = s.ppu.ctrl := by
  unfold ppuWrite mapperPpuWrite
  split_ifs
  · split <;> exact ⟨rfl, rfl⟩
  · exact ⟨rfl, rfl⟩
  · exact ⟨rfl, rfl⟩

/-- The PPU bus read whose byte is buffered, and the advance after it (R282). -/
theorem advanceV_setReadBuffer (a : Nat) (s : State) :
    advanceV (setReadBuffer (ppuRead a s).1 (ppuRead a s).2) = { (ppuRead a s).2 with
      ppu := { (ppuRead a s).2.ppu with readBuffer := (ppuRead a s).1, v := nextV s } } := by
  have hppu := ppuRead_ppu a s
  exact advanceV_eq (t := setReadBuffer (ppuRead a s).1 (ppuRead a s).2) (congrArg Ppu.v hppu :)
    (congrArg Ppu.ctrl hppu :)

/-- Settles O52: a palette read has no effect of its own, so each read is one PPU bus read whose byte is buffered. -/
theorem ppuDataReadsThroughTheBuffer : Obligations.PpuDataReadsThroughTheBuffer := by
  intro val s
  have haddr : s.ppu.v.toNat % 0x4000 = ppuDataAddr s := rfl
  have hnext : BitVec.ofNat 15 ((s.ppu.v.toNat + if s.ppu.ctrl.getLsbD 2 then 32 else 1) % 0x8000) = nextV s := rfl
  simp only [haddr, hnext, busWrite_ppuData, busRead_ppuData]
  refine ⟨?_, fun h => ?_, fun h => ?_⟩
  · obtain ⟨hv, hc⟩ := ppuWrite_registers (ppuDataAddr s) val s
    exact advanceV_eq hv hc
  · rw [readPpuData_of_le h, advanceV_setReadBuffer]
  · have hpalette : (ppuRead (ppuDataAddr s) s).2 = s := by rw [ppuRead_palette h]
    simp only [readPpuData_of_gt (Nat.not_le.mpr h), readAndBuffer, hpalette, advanceV_setReadBuffer]

end Sys2Proof.Machine
end

section
/-! One PPU cycle: what the action of a position changes, and what the advance changes (R260 to R272). -/

namespace Sys2Proof.Machine

/-! ### The action of the current position (R262) -/

/-- The fields the action of a position may change: of the PPU the status and secondary OAM, of the CPU the NMI latch, and
the draw counter and the outputs (R260, R263, R265, R267). -/
def OnlyPpuAct (s t : State) : Prop := ∃ st sec n d o, t = { s with
  ppu := { s.ppu with status := st, secondaryOam := sec }
  pending := { s.pending with nmi := n }
  draws := d
  outputs := o }

theorem secondaryStep_eq (s : State) :
    ∃ sec, secondaryStep s = { s with ppu := { s.ppu with secondaryOam := sec } } := by
  unfold secondaryStep
  split_ifs <;> exact ⟨_, rfl⟩

/-- Whether sprites may be found at the current position of a visible scanline (R272). -/
def SpriteCycle (s : State) : Prop := 1 ≤ s.ppu.cycle ∧ s.ppu.cycle ≤ 256 ∧ rendering s.ppu.mask = true

/-- The status bits sprite evaluation sets: bits 6 and 5 alone (R272). -/
def drawnFlags (s : State) : Byte := (Config.spriteFlags s.draws).setWidth 8 <<< 5

theorem spriteFlagsStep_of_sprite {s : State} (h : SpriteCycle s) : spriteFlagsStep s = { s with
    draws := s.draws + 1, ppu := { s.ppu with status := s.ppu.status ||| drawnFlags s } } :=
  if_pos h

theorem spriteFlagsStep_of_no_sprite {s : State} (h : ¬SpriteCycle s) : spriteFlagsStep s = s := if_neg h

theorem ppuAct_visible {s : State} (h : s.ppu.scanline ≤ 239) : ppuAct s = spriteFlagsStep (secondaryStep s) := if_pos h

theorem ppuAct_vblankStart {s : State} (hl : s.ppu.scanline = 241) (hc : s.ppu.cycle = 1) : ppuAct s = vblankStart s := by
  rw [ppuAct, if_neg (by omega), if_pos ⟨hl, hc⟩]

theorem ppuAct_vblankEnd {s : State} (hl : s.ppu.scanline = 261) (hc : s.ppu.cycle = 1) : ppuAct s = vblankEnd s := by
  rw [ppuAct, if_neg (by omega), if_neg (by omega), if_pos ⟨hl, hc⟩]

theorem ppuAct_idle {s : State} (hv : 239 < s.ppu.scanline) (hs : ¬(s.ppu.scanline = 241 ∧ s.ppu.cycle = 1))
    (he : ¬(s.ppu.scanline = 261 ∧ s.ppu.cycle = 1)) : ppuAct s = s := by
  rw [ppuAct, if_neg (by omega), if_neg hs, if_neg he]

/-- The NMI of R266, as one update of the latch. -/
theorem vblankStart_eq (s : State) : vblankStart s = { s with
    ppu := { s.ppu with status := s.ppu.status ||| 0x80 }
    outputs := .vblankStarted :: s.outputs
    pending := { s.pending with nmi := s.pending.nmi || s.ppu.ctrl.getLsbD 7 } } := by
  have hctrl : s.ppu.ctrl.getLsbD 7 = nmiEnabled s.ppu.ctrl := rfl
  rw [hctrl]
  cases h : nmiEnabled s.ppu.ctrl with
  | true => simp [vblankStart, h, requestInterrupt, Pending.request, emit]
  | false => simp [vblankStart, h, emit]

/-- Away from the two edges the action sets status bits, draws at most, and clears none: no latch, no output (R264, R272). -/
theorem ppuAct_between {s : State} (hs : ¬(s.ppu.scanline = 241 ∧ s.ppu.cycle = 1))
    (he : ¬(s.ppu.scanline = 261 ∧ s.ppu.cycle = 1)) : ∃ f sec d,
    ppuAct s = { s with ppu := { s.ppu with status := s.ppu.status ||| f, secondaryOam := sec }, draws := d } ∧
      (f = 0 ∨ s.ppu.scanline ≤ 239 ∧ SpriteCycle s ∧ f = drawnFlags s) := by
  have hzero : s.ppu.status ||| 0 = s.ppu.status := BitVec.or_zero
  by_cases hv : s.ppu.scanline ≤ 239
  · obtain ⟨sec, hsec⟩ := secondaryStep_eq s
    rw [ppuAct_visible hv, hsec]
    by_cases hsp : SpriteCycle s
    · rw [spriteFlagsStep_of_sprite (s := { s with ppu := { s.ppu with secondaryOam := sec } }) hsp]
      exact ⟨drawnFlags s, sec, _, rfl, .inr ⟨hv, hsp, rfl⟩⟩
    · rw [spriteFlagsStep_of_no_sprite (s := { s with ppu := { s.ppu with secondaryOam := sec } }) hsp]
      exact ⟨0, sec, s.draws, by rw [hzero], .inl rfl⟩
  · rw [ppuAct_idle (by omega) hs he]
    exact ⟨0, s.ppu.secondaryOam, s.draws, by rw [hzero], .inl rfl⟩

theorem ppuAct_onlyPpuAct (s : State) : OnlyPpuAct s (ppuAct s) := by
  by_cases hs : s.ppu.scanline = 241 ∧ s.ppu.cycle = 1
  · rw [ppuAct_vblankStart hs.1 hs.2, vblankStart_eq]
    exact ⟨_, s.ppu.secondaryOam, _, s.draws, _, rfl⟩
  by_cases he : s.ppu.scanline = 261 ∧ s.ppu.cycle = 1
  · rw [ppuAct_vblankEnd he.1 he.2]
    exact ⟨_, s.ppu.secondaryOam, s.pending.nmi, s.draws, _, rfl⟩
  obtain ⟨f, sec, d, h, -⟩ := ppuAct_between hs he
  rw [h]
  exact ⟨_, sec, s.pending.nmi, d, s.outputs, rfl⟩

/-! ### The advance (R269, R270) -/

/-- The advance moves the position and counts the frame; it changes nothing else of the PPU. -/
theorem Ppu.advance_eq (q : Ppu) :
    ∃ c l f o, q.advance = { q with cycle := c, scanline := l, frame := f, oddFrame := o } := by
  unfold Ppu.advance
  split_ifs <;> exact ⟨_, _, _, _, rfl⟩

/-- Everything a cycle can do, field by field of the PPU. -/
theorem ppuCycle_eq (s : State) : ∃ q n d o,
    ppuCycle s = { s with ppu := q, pending := { s.pending with nmi := n }, draws := d, outputs := o } ∧
    ∃ st sec c l f odd, q = { s.ppu with
      status := st, secondaryOam := sec, cycle := c, scanline := l, frame := f, oddFrame := odd } := by
  obtain ⟨st, sec, n, d, o, hact⟩ := ppuAct_onlyPpuAct s
  obtain ⟨c, l, f, odd, hadv⟩ := Ppu.advance_eq (ppuAct s).ppu
  refine ⟨(ppuAct s).ppu.advance, n, d, o, ?_, st, sec, c, l, f, odd, ?_⟩
  · simp only [ppuCycle, hact]
  · rw [hadv, hact]

/-- Settles O42: the action changes the status and secondary OAM, and the advance the position. -/
theorem ppuCycleTouchesOnlyItsOwnState : Obligations.PpuCycleTouchesOnlyItsOwnState := by
  intro s
  obtain ⟨q, n, d, o, h, st, sec, c, l, f, odd, rfl⟩ := ppuCycle_eq s
  dsimp only
  rw [h]
  exact ⟨⟨_, _, _, _, rfl⟩, rfl, rfl, rfl, rfl, rfl, rfl, rfl, rfl, rfl, rfl, rfl, rfl⟩

/-! ### Status, latch and outputs -/

theorem ppuCycle_status (s : State) : (ppuCycle s).ppu.status = (ppuAct s).ppu.status := by
  obtain ⟨c, l, f, odd, h⟩ := Ppu.advance_eq (ppuAct s).ppu
  simp only [ppuCycle, h]

theorem ppuCycle_secondaryOam (s : State) : (ppuCycle s).ppu.secondaryOam = (ppuAct s).ppu.secondaryOam := by
  obtain ⟨c, l, f, odd, h⟩ := Ppu.advance_eq (ppuAct s).ppu
  simp only [ppuCycle, h]

/-- Sprite evaluation sets bits 6 and 5 at most (R272). -/
theorem drawnFlags_and (s : State) : drawnFlags s &&& 0x9F = 0 :=
  (by decide : ∀ f : BitVec 2, (f.setWidth 8 <<< 5) &&& 0x9F = (0 : Byte)) _

/-- Settles O43: the action of each of the two edges, and of the positions between them. -/
theorem vBlankEdgesAndNmi : Obligations.VBlankEdgesAndNmi := by
  intro s
  dsimp only
  rw [ppuCycle_status]
  refine ⟨fun ⟨hl, hc⟩ => ?_, fun ⟨hl, hc⟩ => ?_, fun hs he => ?_⟩
  · simp only [ppuCycle, ppuAct_vblankStart hl hc, vblankStart_eq, and_self]
  · simp only [ppuCycle, ppuAct_vblankEnd hl hc, vblankEnd, emit, and_self]
  · obtain ⟨f, sec, d, h, hf⟩ := ppuAct_between hs he
    have h7 : f.getLsbD 7 = false := by
      rcases hf with rfl | ⟨-, -, rfl⟩
      · rfl
      · simpa using congrArg (·.getLsbD 7) (drawnFlags_and s)
    simp only [ppuCycle, h, BitVec.getLsbD_or, h7, Bool.or_false, and_self]

/-- "Background or sprites shown": bit 3 or bit 4 of PPUMASK (R276). -/
theorem rendering_iff : ∀ mask : Byte, rendering mask = true ↔ mask &&& 0x18 ≠ 0x00 := by decide +kernel

/-- The secondary OAM of a visible scanline at cycle 64, rendering or not (R264). -/
theorem ppuAct_secondaryOam {s : State} (hl : s.ppu.scanline ≤ 239) (hc : s.ppu.cycle = 64) :
    (ppuAct s).ppu.secondaryOam = clearedSecondary := by
  have hclear : secondaryStep s = { s with ppu := { s.ppu with secondaryOam := clearedSecondary } } := if_pos hc
  rw [ppuAct_visible hl, hclear, spriteFlagsStep]
  split_ifs <;> rfl

/-- Away from (261, 1) a cycle only sets status bits: bit 7 at (241, 1), and bits 6 and 5 in a sprite cycle of a visible
scanline (R266, R272). -/
theorem ppuCycle_status_of_not_end {s : State} (he : ¬(s.ppu.scanline = 261 ∧ s.ppu.cycle = 1)) : ∃ f,
    (ppuCycle s).ppu.status = s.ppu.status ||| f ∧ f &&& 0x1F = 0 ∧
      (¬(s.ppu.scanline ≤ 239 ∧ SpriteCycle s) → f &&& 0x60 = 0) := by
  rw [ppuCycle_status]
  by_cases hs : s.ppu.scanline = 241 ∧ s.ppu.cycle = 1
  · rw [ppuAct_vblankStart hs.1 hs.2, vblankStart_eq]
    exact ⟨0x80, rfl, rfl, fun _ => rfl⟩
  obtain ⟨f, sec, d, h, rfl | ⟨hv, hsp, rfl⟩⟩ := ppuAct_between hs he
  · exact ⟨0, by rw [h], rfl, fun _ => rfl⟩
  · refine ⟨drawnFlags s, by rw [h], ?_, fun hno => absurd ⟨hv, hsp⟩ hno⟩
    have hlow : (0x9F : Byte) &&& 0x1F = 0x1F := rfl
    rw [← hlow, ← BitVec.and_assoc, drawnFlags_and]
    rfl

/-- Setting bits outside a mask keeps the bits inside it. -/
theorem or_and_of_disjoint {f m : Byte} (h : f &&& m = 0) (x : Byte) : (x ||| f) &&& m = x &&& m := by
  rw [BitVec.and_or_distrib_right, h]
  exact BitVec.or_zero

/-- Setting bits clears none. -/
theorem and_or_self (x f : Byte) : x &&& (x ||| f) = x := by
  refine BitVec.eq_of_getLsbD_eq fun i _ => ?_
  rw [BitVec.getLsbD_and, BitVec.getLsbD_or]
  cases x.getLsbD i <;> rfl

/-- Settles O44: the clear at cycle 64, and the status bits a cycle may set. -/
theorem visibleScanlineActions : Obligations.VisibleScanlineActions := by
  intro s
  refine ⟨fun hl hc k hk => ?_, fun he => ?_⟩
  · exact secondaryByte_cleared ((ppuCycle_secondaryOam s).trans (ppuAct_secondaryOam hl hc)) hk
  · obtain ⟨f, hstatus, hlow, hsprite⟩ := ppuCycle_status_of_not_end he
    rw [hstatus, and_or_self]
    refine ⟨or_and_of_disjoint hlow _, rfl, fun hno => or_and_of_disjoint (hsprite ?_) _⟩
    rintro ⟨hv, h1, h256, hr⟩
    rw [rendering_iff] at hr
    rcases hno with h | h | h | h
    · exact hr h
    all_goals omega

/-! ### The position -/

/-- The advance sees the position, the frame and the mask, which the action leaves. -/
theorem ppuAct_position (s : State) : (ppuAct s).ppu.scanline = s.ppu.scanline ∧ (ppuAct s).ppu.cycle = s.ppu.cycle ∧
    (ppuAct s).ppu.frame = s.ppu.frame ∧ (ppuAct s).ppu.oddFrame = s.ppu.oddFrame ∧
    (ppuAct s).ppu.mask = s.ppu.mask := by
  obtain ⟨st, sec, n, d, o, h⟩ := ppuAct_onlyPpuAct s
  rw [h]
  exact ⟨rfl, rfl, rfl, rfl, rfl⟩

/-- The position that an odd frame leaves out comes next (R269). -/
def Ppu.Skips (q : Ppu) : Prop := q.scanline = 261 ∧ q.cycle = 338 ∧ q.oddFrame = true ∧ rendering q.mask = true

theorem Ppu.advance_skip {q : Ppu} (h : q.Skips) : q.advance = { q with cycle := 340 } := if_pos h

theorem Ppu.advance_next {q : Ppu} (h : ¬q.Skips) (hc : q.cycle < 340) : q.advance = { q with cycle := q.cycle + 1 } := by
  rw [Ppu.advance]
  exact (if_neg h).trans (if_neg (by omega))

theorem Ppu.advance_line {q : Ppu} (hc : q.cycle = 340) (hl : q.scanline ≠ 261) :
    q.advance = { q with cycle := 0, scanline := q.scanline + 1 } := by
  rw [Ppu.advance, if_neg (by omega), if_pos hc, if_neg hl]

theorem Ppu.advance_frame {q : Ppu} (hc : q.cycle = 340) (hl : q.scanline = 261) :
    q.advance = { q with cycle := 0, scanline := 0, frame := q.frame + 1, oddFrame := !q.oddFrame } := by
  rw [Ppu.advance, if_neg (by omega), if_pos hc, if_pos hl]

/-- Settles O45: one case of the advance for each clause. -/
theorem ppuPositionAdvances : Obligations.PpuPositionAdvances := by
  intro s hl hc
  obtain ⟨el, ec, ef, eo, em⟩ := ppuAct_position s
  have hnext : (ppuCycle s).ppu = (ppuAct s).ppu.advance := rfl
  have hskip : (s.ppu.scanline = 261 ∧ s.ppu.cycle = 338 ∧ s.ppu.oddFrame = true ∧ s.ppu.mask &&& 0x18 ≠ 0x00) ↔
      (ppuAct s).ppu.Skips := by rw [Ppu.Skips, rendering_iff, el, ec, eo, em]
  simp only [hskip, hnext]
  rw [← ec, ← el, ← ef, ← eo]
  refine ⟨fun h => ?_, fun h hlt => ?_, fun h hlt => ?_, fun h hlast => ?_⟩
  · rw [Ppu.advance_skip h]
    exact ⟨rfl, h.1, rfl, rfl⟩
  · rw [Ppu.advance_next h hlt]
    exact ⟨rfl, rfl, rfl, rfl⟩
  · rw [Ppu.advance_line h (by omega)]
    exact ⟨rfl, rfl, rfl, rfl⟩
  · rw [Ppu.advance_frame h hlast]
    exact ⟨rfl, rfl, rfl, rfl⟩

/-! ### A stalled tick -/

/-- `t` has the latch of `s` but for NMIs requested since. -/
structure LatchKept (s t : State) : Prop where
  nmi : s.pending.nmi = true → t.pending.nmi = true
  irq : t.pending.irq = s.pending.irq
  reset : t.pending.reset = s.pending.reset

theorem LatchKept.trans {s t u : State} (h : LatchKept s t) (k : LatchKept t u) : LatchKept s u :=
  ⟨fun e => k.nmi (h.nmi e), k.irq.trans h.irq, k.reset.trans h.reset⟩

theorem ppuCycle_latch (s : State) : LatchKept s (ppuCycle s) := by
  obtain ⟨hstart, hend, hbetween⟩ := vBlankEdgesAndNmi s
  by_cases hs : s.ppu.scanline = 241 ∧ s.ppu.cycle = 1
  · obtain ⟨-, -, h⟩ := hstart hs
    exact ⟨fun e => by rw [h]; exact Bool.or_eq_true_iff.mpr (.inl e), by rw [h], by rw [h]⟩
  have h : (ppuCycle s).pending = s.pending := by
    by_cases he : s.ppu.scanline = 261 ∧ s.ppu.cycle = 1
    · exact (hend he).2.2
    · exact (hbetween hs he).2.2
  exact ⟨fun e => h ▸ e, by rw [h], by rw [h]⟩

theorem ppuCycles_latch (n : Nat) (s : State) : LatchKept s (ppuCycles n s) := by
  induction n generalizing s with
  | zero => exact ⟨id, rfl, rfl⟩
  | succ n ih => exact (ppuCycle_latch s).trans (ih _)

theorem ppuTick_latch (s : State) : LatchKept s (ppuTick s) := by
  have h := ppuCycles_latch Config.ppuPerCpu s
  simp only [ppuTick]
  split
  · exact h
  · exact ⟨h.nmi, h.irq, h.reset⟩

theorem SameCpu.trans {s t u : State} (h : SameCpu s t) (k : SameCpu t u) : SameCpu s u :=
  ⟨k.a.trans h.a, k.x.trans h.x, k.y.trans h.y, k.pc.trans h.pc, k.sp.trans h.sp, k.p.trans h.p,
    k.instructionCycle.trans h.instructionCycle, k.current.trans h.current, k.penaltyLeft.trans h.penaltyLeft,
    k.totalCycles.trans h.totalCycles, k.halted.trans h.halted⟩

/-- The PPU's part of a tick keeps the CPU (R10, R301). -/
theorem ppuTick_sameCpu (s : State) : SameCpu s (ppuTick s) := by
  obtain ⟨q, pd, d, o, h⟩ := ppuTick_only s
  rw [h]
  exact ⟨rfl, rfl, rfl, rfl, rfl, rfl, rfl, rfl, rfl, rfl, rfl⟩

theorem ppuTick_sameTiming (s : State) : SameTiming s (ppuTick s) := by
  obtain ⟨q, pd, d, o, h⟩ := ppuTick_only s
  rw [h]
  exact ⟨rfl, rfl, rfl, rfl, rfl⟩

@[simp] theorem ppuTick_dmaStall (s : State) : (ppuTick s).dmaStall = s.dmaStall := by
  obtain ⟨q, pd, d, o, h⟩ := ppuTick_only s
  rw [h]

/-- Settles O55: the CPU's part of the tick is one stall cycle, and the PPU's part keeps the CPU and what is pending. -/
theorem stalledTickHoldsTheCpu : Obligations.StalledTickHoldsTheCpu := by
  intro s hm hs d t
  have ht : tick s = .next t := by
    rw [tick_of_ntsc hm, cpuTick_of_stall (s := { Spec.delivered s with masterCycle := s.masterCycle + 1 }) hs]
    rfl
  obtain ⟨u, hu⟩ : ∃ u : State, u = { d with masterCycle := d.masterCycle + 1, dmaStall := d.dmaStall - 1 } := ⟨_, rfl⟩
  have htu : t = ppuTick u := congrArg ppuTick hu.symm
  have hcpu : SameCpu s u := by rw [hu]; exact ⟨rfl, rfl, rfl, rfl, rfl, rfl, rfl, rfl, rfl, rfl, rfl⟩
  have hlatch := ppuTick_latch u
  refine ⟨ht, htu ▸ hcpu.trans (ppuTick_sameCpu u), ?_⟩
  rw [htu, ppuTick_dmaStall, (ppuTick_sameTiming u).inputs, hlatch.irq, hlatch.reset]
  subst hu
  exact ⟨rfl, rfl, hlatch.nmi, rfl, rfl⟩

end Sys2Proof.Machine
end

section
/-! Whole frames: a frame is 89342 positions, counted along the run of PPU cycles, and the edges of VBlank are at fixed
positions of it (R261, R266, R268 to R271). -/

namespace Sys2Proof.Machine

open Sys2Proof.Spec (vblankStarts vblankEnds)

/-! ### The clock of the PPU -/

/-- The positions of a frame (R261). -/
structure Ppu.InRange (q : Ppu) : Prop where
  scanline_le : q.scanline ≤ 261
  cycle_le : q.cycle ≤ 340

/-- The number of the current position, counted from (0, 0) of frame 0, each frame counted with all its 262 * 341
positions (R261). -/
def Ppu.clock (q : Ppu) : Nat := q.frame * 89342 + q.scanline * 341 + q.cycle

/-- How often the clock has left the position `(l, 1)`, whose number in its frame is `l * 341 + 1`. -/
def Ppu.passes (l : Nat) (q : Ppu) : Nat := (q.clock + (89341 - (l * 341 + 1))) / 89342

/-- `t` comes from `s` by PPU cycles: the position stays in range, PPUMASK stays, the odd flag toggles with the frame
counter (R270), and each edge is emitted as often as its position is passed (R266, R268, R271). -/
structure Elapsed (s t : State) : Prop where
  inRange : t.ppu.InRange
  mask : t.ppu.mask = s.ppu.mask
  odd : (t.ppu.oddFrame ^^ decide (t.ppu.frame % 2 = 1)) = (s.ppu.oddFrame ^^ decide (s.ppu.frame % 2 = 1))
  starts : vblankStarts t + s.ppu.passes 241 = vblankStarts s + t.ppu.passes 241
  ends : vblankEnds t + s.ppu.passes 261 = vblankEnds s + t.ppu.passes 261

theorem Elapsed.refl {s : State} (h : s.ppu.InRange) : Elapsed s s := ⟨h, rfl, rfl, rfl, rfl⟩

theorem Elapsed.trans {s t u : State} (h : Elapsed s t) (k : Elapsed t u) : Elapsed s u where
  inRange := k.inRange
  mask := k.mask.trans h.mask
  odd := k.odd.trans h.odd
  starts := by have := h.starts; have := k.starts; omega
  ends := by have := h.ends; have := k.ends; omega

/-! ### One cycle -/

theorem Ppu.skips_iff (q : Ppu) :
    q.Skips ↔ q.scanline = 261 ∧ q.cycle = 338 ∧ q.oddFrame = true ∧ q.mask &&& 0x18 ≠ 0x00 := by
  rw [Ppu.Skips, rendering_iff]

/-- The four moves of the position (R262, R269, R270). -/
inductive Ppu.Move (q q' : Ppu) : Prop where
  | skip (h : q.Skips) (cycle : q'.cycle = 340) (scanline : q'.scanline = 261) (frame : q'.frame = q.frame)
      (odd : q'.oddFrame = q.oddFrame)
  | next (h : ¬q.Skips) (lt : q.cycle < 340) (cycle : q'.cycle = q.cycle + 1) (scanline : q'.scanline = q.scanline)
      (frame : q'.frame = q.frame) (odd : q'.oddFrame = q.oddFrame)
  | line (last : q.cycle = 340) (lt : q.scanline < 261) (cycle : q'.cycle = 0) (scanline : q'.scanline = q.scanline + 1)
      (frame : q'.frame = q.frame) (odd : q'.oddFrame = q.oddFrame)
  | frame (last : q.cycle = 340) (lastLine : q.scanline = 261) (cycle : q'.cycle = 0) (scanline : q'.scanline = 0)
      (frame : q'.frame = q.frame + 1) (odd : q'.oddFrame = !q.oddFrame)

theorem ppuCycle_move {s : State} (h : s.ppu.InRange) : Ppu.Move s.ppu (ppuCycle s).ppu := by
  obtain ⟨hl, hc⟩ := h
  obtain ⟨hskip, hnext, hline, hframe⟩ := ppuPositionAdvances s hl hc
  rw [← Ppu.skips_iff] at hskip hnext
  by_cases hs : s.ppu.Skips
  · obtain ⟨ec, el, ef, eo⟩ := hskip hs
    exact .skip hs ec el ef eo
  rcases Nat.lt_or_eq_of_le hc with hlt | h340
  · obtain ⟨ec, el, ef, eo⟩ := hnext hs hlt
    exact .next hs hlt ec el ef eo
  rcases Nat.lt_or_eq_of_le hl with hlt | h261
  · obtain ⟨ec, el, ef, eo⟩ := hline h340 hlt
    exact .line h340 hlt ec el ef eo
  · obtain ⟨ec, el, ef, eo⟩ := hframe h340 h261
    exact .frame h340 h261 ec el ef eo

/-- A move is one position of the clock, two where one is skipped. -/
theorem Ppu.Move.clock {q q' : Ppu} (h : q.Move q') :
    (¬q.Skips → q'.clock = q.clock + 1) ∧ (q.Skips → q'.clock = q.clock + 2) := by
  simp only [Ppu.clock]
  cases h with
  | skip hs _ _ _ _ =>
    refine ⟨fun hno => absurd hs hno, fun _ => ?_⟩
    obtain ⟨h261, h338, -, -⟩ := hs
    omega
  | next hno _ _ _ _ _ => exact ⟨fun _ => by omega, fun hs => absurd hs hno⟩
  | line last _ _ _ _ _ => exact ⟨fun _ => by omega, fun ⟨_, h338, _, _⟩ => by omega⟩
  | frame last _ _ _ _ _ => exact ⟨fun _ => by omega, fun ⟨_, h338, _, _⟩ => by omega⟩

theorem Ppu.Move.inRange {q q' : Ppu} (h : q.Move q') (hq : q.InRange) : q'.InRange := by
  obtain ⟨hl, hc⟩ := hq
  cases h <;> exact ⟨by omega, by omega⟩

/-- The odd flag toggles where the frame is counted (R270). -/
theorem Ppu.Move.odd {q q' : Ppu} (h : q.Move q') :
    (q'.oddFrame ^^ decide (q'.frame % 2 = 1)) = (q.oddFrame ^^ decide (q.frame % 2 = 1)) := by
  cases h with
  | skip _ _ _ hf ho | next _ _ _ _ hf ho | line _ _ _ _ hf ho => rw [hf, ho]
  | frame _ _ _ _ hf ho =>
    rw [hf, ho]
    rcases Nat.mod_two_eq_zero_or_one q.frame with e | e <;> simp [Nat.add_mod, e]

theorem ppuCycle_clock {s : State} (h : s.ppu.InRange) :
    (¬s.ppu.Skips → (ppuCycle s).ppu.clock = s.ppu.clock + 1) ∧
    (s.ppu.Skips → (ppuCycle s).ppu.clock = s.ppu.clock + 2) :=
  (ppuCycle_move h).clock

/-- The edges a cycle emits, by the position it starts from (R266, R268). -/
theorem ppuCycle_edges (s : State) :
    vblankStarts (ppuCycle s) = vblankStarts s + (if s.ppu.scanline = 241 ∧ s.ppu.cycle = 1 then 1 else 0) ∧
    vblankEnds (ppuCycle s) = vblankEnds s + (if s.ppu.scanline = 261 ∧ s.ppu.cycle = 1 then 1 else 0) := by
  obtain ⟨hstart, hend, hbetween⟩ := vBlankEdgesAndNmi s
  by_cases hs : s.ppu.scanline = 241 ∧ s.ppu.cycle = 1
  · obtain ⟨-, ho, -⟩ := hstart hs
    have he : ¬(s.ppu.scanline = 261 ∧ s.ppu.cycle = 1) := by omega
    rw [if_pos hs, if_neg he]
    simp [vblankStarts, vblankEnds, ho]
  by_cases he : s.ppu.scanline = 261 ∧ s.ppu.cycle = 1
  · obtain ⟨-, ho, -⟩ := hend he
    rw [if_neg hs, if_pos he]
    simp [vblankStarts, vblankEnds, ho]
  · obtain ⟨-, ho, -⟩ := hbetween hs he
    simp only [vblankStarts, vblankEnds, ho, if_neg hs, if_neg he, Nat.add_zero, and_self]

/-- Leaving the position (l, 1) is what passes its number; a skip leaves no such position. -/
theorem ppuCycle_passes {s : State} (h : s.ppu.InRange) {l : Nat} (hl : l ≤ 261) :
    (ppuCycle s).ppu.passes l =
      s.ppu.passes l + (if s.ppu.scanline = l ∧ s.ppu.cycle = 1 then 1 else 0) := by
  obtain ⟨hnext, hskip⟩ := ppuCycle_clock h
  obtain ⟨hl', hc'⟩ := h
  have hclock : s.ppu.clock = s.ppu.frame * 89342 + s.ppu.scanline * 341 + s.ppu.cycle := rfl
  simp only [Ppu.passes]
  by_cases hs : s.ppu.Skips
  · rw [hskip hs]
    obtain ⟨h261, h338, -, -⟩ := hs
    split_ifs <;> omega
  · rw [hnext hs]
    split_ifs <;> omega

theorem ppuCycle_elapsed {s : State} (h : s.ppu.InRange) : Elapsed s (ppuCycle s) where
  inRange := (ppuCycle_move h).inRange h
  mask := by
    obtain ⟨-, -, hmask, -⟩ := ppuCycleTouchesOnlyItsOwnState s
    exact hmask
  odd := (ppuCycle_move h).odd
  starts := by
    rw [(ppuCycle_edges s).1, ppuCycle_passes h (l := 241) (by decide)]
    omega
  ends := by
    rw [(ppuCycle_edges s).2, ppuCycle_passes h (l := 261) (by decide)]
    omega

/-! ### Runs of cycles -/

theorem ppuCycles_add (m n : Nat) (s : State) : ppuCycles (m + n) s = ppuCycles n (ppuCycles m s) := by
  induction m generalizing s with
  | zero => rw [Nat.zero_add, ppuCycles]
  | succ m ih => rw [Nat.add_right_comm, ppuCycles, ppuCycles, ih]

theorem ppuCycles_succ (n : Nat) (s : State) : ppuCycles (n + 1) s = ppuCycle (ppuCycles n s) :=
  ppuCycles_add n 1 s

theorem ppuCycles_elapsed {s : State} (h : s.ppu.InRange) (n : Nat) : Elapsed s (ppuCycles n s) := by
  induction n with
  | zero => exact .refl h
  | succ n ih =>
    rw [ppuCycles_succ]
    exact ih.trans (ppuCycle_elapsed ih.inRange)

/-- A run that skips no position counts its cycles. -/
theorem ppuCycles_clock {s : State} (h : s.ppu.InRange) {n : Nat} (hn : ∀ k < n, ¬(ppuCycles k s).ppu.Skips) :
    (ppuCycles n s).ppu.clock = s.ppu.clock + n := by
  induction n with
  | zero => rw [ppuCycles, Nat.add_zero]
  | succ n ih =>
    have hclock := (ppuCycle_clock (ppuCycles_elapsed h n).inRange).1 (hn n (Nat.lt_succ_self n))
    rw [ppuCycles_succ, hclock, ih fun k hk => hn k (Nat.lt_succ_of_lt hk), Nat.add_assoc]

/-- A whole frame's clock later the position is the same, the frame is counted, the odd flag toggled, and each edge was
emitted once (R261, R270, R271). -/
theorem Elapsed.frame {s t : State} (h : Elapsed s t) (hs : s.ppu.InRange) (hc : t.ppu.clock = s.ppu.clock + 89342) :
    t.ppu.scanline = s.ppu.scanline ∧ t.ppu.cycle = s.ppu.cycle ∧ t.ppu.frame = s.ppu.frame + 1 ∧
    t.ppu.oddFrame = (!s.ppu.oddFrame) ∧
    vblankStarts t = vblankStarts s + 1 ∧ vblankEnds t = vblankEnds s + 1 := by
  obtain ⟨⟨hl', hc'⟩, -, hodd, hstarts, hends⟩ := h
  obtain ⟨hl, hcy⟩ := hs
  simp only [Ppu.passes, hc] at hstarts hends
  simp only [Ppu.clock] at hc
  have hframe : t.ppu.frame = s.ppu.frame + 1 := by omega
  refine ⟨by omega, by omega, hframe, ?_, by omega, by omega⟩
  rw [hframe] at hodd
  rcases Nat.mod_two_eq_zero_or_one s.ppu.frame with e | e <;>
    simpa [Nat.add_mod, e, Bool.not_eq_eq_eq_not] using hodd

/-- Settles O46: with rendering disabled no position is skipped. -/
theorem frameHas89342Cycles : Obligations.FrameHas89342Cycles := by
  intro s hl hc hmask
  have hs : s.ppu.InRange := ⟨hl, hc⟩
  have hno : ∀ k < 89342, ¬(ppuCycles k s).ppu.Skips := fun k _ hk => by
    obtain ⟨-, -, -, hr⟩ := hk
    rw [rendering_iff, (ppuCycles_elapsed hs k).mask] at hr
    exact hr hmask
  exact (ppuCycles_elapsed hs 89342).frame hs (ppuCycles_clock hs hno)

/-! ### The frame with rendering enabled (R269) -/

/-- Up to the position before the skipped one, or through the whole of an even frame, a run from (0, 0) counts its cycles
inside that frame. -/
theorem ppuCycles_clock_of_start {s : State} (hl : s.ppu.scanline = 0) (hc : s.ppu.cycle = 0) {n : Nat}
    (hn : n ≤ 89339 ∨ s.ppu.oddFrame = false ∧ n ≤ 89342) : (ppuCycles n s).ppu.clock = s.ppu.clock + n := by
  have hs : s.ppu.InRange := ⟨by omega, by omega⟩
  induction n with
  | zero => rw [ppuCycles, Nat.add_zero]
  | succ n ih =>
    have hclock := ih (hn.imp (by omega) fun h => ⟨h.1, by omega⟩)
    obtain ⟨⟨hl', hc'⟩, -, hodd, -, -⟩ := ppuCycles_elapsed hs n
    have hno : ¬(ppuCycles n s).ppu.Skips := fun ⟨h261, h338, hyes, _⟩ => by
      simp only [Ppu.clock] at hclock
      obtain ⟨heven, -⟩ := hn.resolve_left (by omega)
      have hframe : (ppuCycles n s).ppu.frame = s.ppu.frame := by omega
      rw [hframe, hyes, heven] at hodd
      simp at hodd
    rw [ppuCycles_succ, (ppuCycle_clock (ppuCycles_elapsed hs n).inRange).1 hno, hclock, Nat.add_assoc]

/-- In an odd frame the run from (0, 0) skips one position on its cycle 89340 (R269). -/
theorem ppuCycles_clock_of_odd {s : State} (hl : s.ppu.scanline = 0) (hc : s.ppu.cycle = 0)
    (hodd : s.ppu.oddFrame = true) (hr : rendering s.ppu.mask = true) :
    (ppuCycles 89341 s).ppu.clock = s.ppu.clock + 89342 := by
  have hs : s.ppu.InRange := ⟨by omega, by omega⟩
  have hrun : ppuCycles 89341 s = ppuCycle (ppuCycle (ppuCycles 89339 s)) := by
    rw [← ppuCycles_succ, ← ppuCycles_succ]
  have hclock := ppuCycles_clock_of_start hl hc (n := 89339) (.inl (Nat.le_refl _))
  have he := ppuCycles_elapsed hs 89339
  generalize ppuCycles 89339 s = u at hrun hclock he
  obtain ⟨⟨hl', hc'⟩, hmask, hoddu, -, -⟩ := he
  have hskip : u.ppu.Skips := by
    simp only [Ppu.clock] at hclock
    have hframe : u.ppu.frame = s.ppu.frame := by omega
    rw [hframe, Bool.xor_left_inj] at hoddu
    exact ⟨by omega, by omega, hoddu.trans hodd, hmask ▸ hr⟩
  have hnext := (ppuCycle_clock ⟨hl', hc'⟩).2 hskip
  have hin := (ppuCycle_move ⟨hl', hc'⟩).inRange ⟨hl', hc'⟩
  have hno : ¬(ppuCycle u).ppu.Skips := fun ⟨h261, h338, _, _⟩ => by
    obtain ⟨hl'', hc''⟩ := hin
    simp only [Ppu.clock] at hnext hclock
    omega
  rw [hrun, (ppuCycle_clock hin).1 hno, hnext, hclock]

/-- Settles O47: the odd frame skips one position, the even one none. -/
theorem oddFrameSkipsOneCycle : Obligations.OddFrameSkipsOneCycle := by
  intro s hl hc hmask
  have hs : s.ppu.InRange := ⟨by omega, by omega⟩
  have hclock : (ppuCycles (if s.ppu.oddFrame then 89341 else 89342) s).ppu.clock = s.ppu.clock + 89342 := by
    cases hodd : s.ppu.oddFrame with
    | true => exact ppuCycles_clock_of_odd hl hc hodd (rendering_iff _ |>.mpr hmask)
    | false => exact ppuCycles_clock_of_start hl hc (.inr ⟨hodd, Nat.le_refl _⟩)
  obtain ⟨el, ec, ef, eo, hstarts, -⟩ := (ppuCycles_elapsed hs _).frame hs hclock
  exact ⟨el.trans hl, ec.trans hc, ef, eo, hstarts⟩

end Sys2Proof.Machine
end

section
/-! A bus read sees the memories and the devices alone, whatever the CPU holds (R44, R55), and OAM DMA as the ascending
sequence of its reads (R290). -/

namespace Sys2Proof.Machine

/-! ### What a read sees -/

/-- The state `t` with the memories, the devices and the free values of `s`: all that a bus read sees. -/
def State.seeing (t s : State) : State :=
  { t with ram := s.ram, cart := s.cart, ppu := s.ppu, draws := s.draws, memEpoch := s.memEpoch }

theorem readMapped_seeing (w : Option (Nat × MemoryKind)) (t s : State) :
    readMapped w (t.seeing s) = Prod.map id t.seeing (readMapped w s) := by
  rcases w with _ | ⟨off, kind⟩ <;> rfl

theorem ppuRead_seeing (a : Nat) (t s : State) : ppuRead a (t.seeing s) = Prod.map id t.seeing (ppuRead a s) := by
  unfold ppuRead
  split_ifs
  · exact readMapped_seeing _ t s
  · rfl
  · rfl

theorem readAndBuffer_seeing (a b : Nat) (t s : State) :
    readAndBuffer a b (t.seeing s) = Prod.map id t.seeing (readAndBuffer a b s) := by
  simp only [readAndBuffer, ppuRead_seeing, Prod.map_snd]
  rfl

theorem readPpuData_seeing (t s : State) : readPpuData (t.seeing s) = Prod.map id t.seeing (readPpuData s) := by
  have haddr : ppuDataAddr (t.seeing s) = ppuDataAddr s := rfl
  by_cases h : ppuDataAddr s ≤ 0x3EFF
  · rw [readPpuData_of_le h, readPpuData_of_le (s := t.seeing s) h, haddr, ppuRead_seeing]
    rfl
  · rw [readPpuData_of_gt h, readPpuData_of_gt (s := t.seeing s) h, haddr, readAndBuffer_seeing]

theorem ppuRegRead_seeing (n : Nat) (t s : State) :
    ppuRegRead n (t.seeing s) = Prod.map id t.seeing (ppuRegRead n s) := by
  unfold ppuRegRead
  split
  · rfl
  · rfl
  · exact readPpuData_seeing t s
  · rfl

/-- The byte read and the effect of the read are the same in any CPU. -/
theorem busRead_seeing (a : Word) (t s : State) : busRead a (t.seeing s) = Prod.map id t.seeing (busRead a s) := by
  unfold busRead
  split_ifs
  · rfl
  · exact ppuRegRead_seeing _ t s
  · rfl
  · exact readMapped_seeing _ t s

/-- Plain memory holds the same byte wherever RAM and the cartridge are the same, and is read without effect (R55). -/
theorem busRead_plain_congr {a : Word} {s t : State} (h : plainMemory s.cart a = true) (hram : t.ram = s.ram)
    (hcart : t.cart = s.cart) (hepoch : t.memEpoch = s.memEpoch) : busRead a t = ((busRead a s).1, t) := by
  refine Prod.ext ?_ (busRead_plain (hcart ▸ h))
  simp only [plainMemory, Bool.or_eq_true, Bool.and_eq_true, decide_eq_true_eq, beq_iff_eq] at h
  rcases h with h | ⟨h, hm⟩
  · rw [busRead_ram h, busRead_ram h, ramByte, hram, hepoch]
    rfl
  · have hm' : t.cart.mapper = .flatRom := hcart ▸ hm
    rw [busRead_cart (by omega), busRead_cart (by omega), mapCpuAddress_flatRom hm, mapCpuAddress_flatRom hm', if_pos h,
      readMapped_some, readMapped_some, hcart]

/-! ### OAM DMA -/

/-- One byte of OAM DMA: the read of the source address and the store at its index (R290). -/
def dmaByte (val : Byte) (u : State) (i : Nat) : State :=
  oamWrite i (busRead (BitVec.ofNat 16 (val.toNat * 256 + i)) u).1 (busRead (BitVec.ofNat 16 (val.toNat * 256 + i)) u).2

/-- The source address, its index inside the page (R290). -/
theorem dmaAddr_eq (val : Byte) {i : Nat} (hi : i < 256) :
    hiLo val (BitVec.ofNat 8 i) = BitVec.ofNat 16 (val.toNat * 256 + i) := by
  rw [hiLo_eq_ofNat_hi_add_lo, BitVec.toNat_ofNat, Nat.mod_eq_of_lt hi]

/-- The copy loop is the sequence of its bytes at ascending indexes. -/
theorem oamDmaCopy_eq_foldl (val : Byte) {n i : Nat} (hn : i + n ≤ 256) (s : State) :
    oamDmaCopy val n i s = (List.range' i n).foldl (dmaByte val) s := by
  induction n generalizing i s with
  | zero => rfl
  | succ n ih =>
    rw [List.range'_succ, List.foldl_cons, ← ih (by omega), oamDmaCopy, dmaAddr_eq val (by omega)]
    rfl

theorem oamDma_eq (val : Byte) (s : State) : oamDma val s =
    { (List.range 256).foldl (dmaByte val) s with dmaStall := 513 + s.totalCycles % 2 } := by
  rw [oamDma, oamDmaCopy_eq_foldl val (by decide), List.range_eq_range']

/-- The first `n` bytes of the page at `val` of `s` stand in OAM, and nothing else has changed. -/
structure DmaCopied (val : Byte) (s : State) (n : Nat) (u : State) : Prop where
  only : u = { s with ppu := { s.ppu with oam := u.ppu.oam } }
  copied : ∀ k < n, oamByte u k = (busRead (BitVec.ofNat 16 (val.toNat * 256 + k)) s).1

/-- From plain memory each byte is the one that stands there, since the copy changes OAM alone (R55, R290). -/
theorem dmaCopied_of_plain {val : Byte} {s : State} {n : Nat}
    (h : ∀ k < n, plainMemory s.cart (BitVec.ofNat 16 (val.toNat * 256 + k)) = true) :
    DmaCopied val s n ((List.range n).foldl (dmaByte val) s) := by
  induction n with
  | zero => exact ⟨rfl, fun k hk => absurd hk (Nat.not_lt_zero k)⟩
  | succ n ih =>
    obtain ⟨honly, hcopied⟩ := ih fun k hk => h k (Nat.lt_succ_of_lt hk)
    rw [List.range_succ, List.foldl_append, List.foldl_cons, List.foldl_nil]
    generalize (List.range n).foldl (dmaByte val) s = u at honly hcopied
    have hread := busRead_plain_congr (t := u) (h n (Nat.lt_succ_self n)) (congrArg State.ram honly :)
      (congrArg State.cart honly :) (congrArg State.memEpoch honly :)
    rw [dmaByte, hread]
    refine ⟨?_, fun k hk => ?_⟩
    · conv_lhs => rw [honly]
      rfl
    · rw [oamByte_oamWrite]
      split
      next he => rw [he]
      next hne => exact hcopied k (by omega)

/-- Settles O54: the copy is the sequence of `dmaByte`, and from plain memory `dmaCopied_of_plain`. -/
theorem oamDmaCopiesAPageAndStalls : Obligations.OamDmaCopiesAPageAndStalls := by
  intro val s
  dsimp only
  rw [busWrite_dma (by decide), oamDma_eq]
  refine ⟨rfl, fun h => ?_⟩
  obtain ⟨honly, hcopied⟩ := dmaCopied_of_plain h
  generalize (List.range 256).foldl (dmaByte val) s = u at honly hcopied
  refine ⟨hcopied, ?_⟩
  conv_lhs => rw [honly]

end Sys2Proof.Machine
end

section
/-! The step that runs one instruction: the fetch tick, the idle ticks, the effect step, and the stall and penalty ticks
after it (R291, R330 to R335). -/

namespace Sys2Proof.Machine

open Sys2Proof.Spec (counted delivered idleTick stallTick penaltyTick beforeEffect finished)

/-! ### The ticks after the effect step -/

/-- An instruction has taken its effect, with `k` cycles of stall and `p` penalty cycles left, and no host request is to
come (R291, R335). -/
structure AfterEffect (k p : Nat) (s : State) : Prop where
  ntsc : s.timingMode = .ntsc
  inputs : s.inputs = []
  notHalted : s.halted = false
  cycle : s.instructionCycle = 0
  stall : s.dmaStall = k
  penalty : s.penaltyLeft = p

section
variable {k p : Nat} {s : State}

theorem AfterEffect.after_ppuTick (h : AfterEffect k p s) : AfterEffect k p (ppuTick s) := by
  obtain ⟨q, pd, d, o, e⟩ := ppuTick_only s
  rw [e]
  exact { h with }

theorem AfterEffect.after_stallTick (h : AfterEffect (k + 1) p s) : AfterEffect k p (stallTick s) :=
  AfterEffect.after_ppuTick { h with stall := by rw [h.stall, Nat.add_sub_cancel] }

theorem AfterEffect.after_penaltyTick (h : AfterEffect 0 (p + 1) s) : AfterEffect 0 p (penaltyTick s) :=
  AfterEffect.after_ppuTick { h with penalty := by rw [h.penalty, Nat.add_sub_cancel] }

theorem AfterEffect.tick_stall (h : AfterEffect (k + 1) p s) : tick s = .next (stallTick s) := by
  obtain ⟨ht, -⟩ := stalledTickHoldsTheCpu s h.ntsc (h.stall ▸ Nat.succ_pos k)
  rwa [delivered_of_no_inputs h.inputs] at ht

theorem AfterEffect.tick_penalty (h : AfterEffect 0 (p + 1) s) : tick s = .next (penaltyTick s) := by
  rw [tick_of_ntsc h.ntsc, delivered_of_no_inputs h.inputs,
    cpuTick_of_no_stall (s := { s with masterCycle := s.masterCycle + 1 }) h.stall,
    cpuCycle_of_penalty (s := { s with masterCycle := s.masterCycle + 1 }) h.notHalted (h.penalty ▸ Nat.succ_pos p)]
  rfl

theorem AfterEffect.settled_iff (h : AfterEffect k p s) : settled s = true ↔ p = 0 ∧ k = 0 := by
  rw [Machine.settled_iff, h.cycle, h.penalty, h.stall]
  exact and_iff_right rfl

/-- The run takes the stall first, whatever penalty is left (R291). -/
theorem AfterEffect.settle_stall (h : AfterEffect k p s) (m : Nat) :
    settle (m + k) s = settle m (Nat.iterate stallTick k s) ∧ AfterEffect 0 p (Nat.iterate stallTick k s) := by
  induction k generalizing s with
  | zero => exact ⟨rfl, h⟩
  | succ k ih =>
    have hs : settled s = false := Bool.eq_false_iff.mpr fun e => absurd (h.settled_iff.mp e).2 (Nat.succ_ne_zero k)
    rw [← Nat.add_assoc, settle_of_tick hs h.tick_stall]
    exact ih h.after_stallTick

/-- Then the penalty cycles (R335), after which the machine is settled. -/
theorem AfterEffect.settle_penalty (h : AfterEffect 0 p s) (m : Nat) :
    settle (m + 1 + p) s = .next (Nat.iterate penaltyTick p s) := by
  induction p generalizing s with
  | zero => exact settle_of_settled (Nat.succ_pos m) (h.settled_iff.mpr ⟨rfl, rfl⟩)
  | succ p ih =>
    have hs : settled s = false := Bool.eq_false_iff.mpr fun e => absurd (h.settled_iff.mp e).1 (Nat.succ_ne_zero p)
    rw [← Nat.add_assoc, settle_of_tick hs h.tick_penalty]
    exact ih h.after_penaltyTick

/-- With enough fuel the run from the effect step ends in `finished`. -/
theorem AfterEffect.settle_finished (h : AfterEffect k p s) {n : Nat} (hn : k + p < n) :
    settle n (ppuTick s) = .next (finished s) := by
  obtain ⟨m, rfl⟩ : ∃ m, n = m + 1 + p + k := ⟨n - (k + p) - 1, by omega⟩
  obtain ⟨hstall, hafter⟩ := h.after_ppuTick.settle_stall (m + 1 + p)
  rw [hstall, hafter.settle_penalty, finished, h.stall, h.penalty]

end

/-! ### The stall an instruction can cause -/

theorem busWrite_dmaStall (a : Word) (v : Byte) (s : State) :
    (busWrite a v s).dmaStall = s.dmaStall ∨ (busWrite a v s).dmaStall = 513 + s.totalCycles % 2 := by
  unfold busWrite
  split_ifs
  · exact .inl rfl
  · obtain ⟨q, pd, c, h, -⟩ := ppuRegWrite_eq (a.toNat % 8) v s
    exact .inl (by rw [h])
  · exact .inr rfl
  · exact .inl rfl
  · obtain ⟨pd, c, h, -⟩ := mapperCpuWrite_eq a v s
    exact .inl (by rw [h])

theorem Accesses.dmaStall_le {L W : List Word} {s t : State} (h : Accesses L W s t) (hs : s.dmaStall ≤ 514) :
    t.dmaStall ≤ 514 := by
  induction h with
  | refl => exact hs
  | cpu _ hc ih =>
    obtain ⟨_, _, _, _, _, _, _, _, rfl⟩ := hc
    exact ih
  | @read u a _ _ ih =>
    obtain ⟨q, d, e⟩ := busRead_only a u
    rw [e]
    exact ih
  | @write u a v _ _ ih =>
    rcases busWrite_dmaStall a v u with e | e
    · exact e ▸ ih
    · omega

/-- Every legal instruction answers a next state from which only a stall and a penalty are left (R207, R291, R335). -/
theorem exec_afterEffect {i : Instr} (hi : i.mnemonic ≠ .ILLEGAL) {s : State} (h : AfterEffect 0 0 s) :
    ∃ t, exec i s = .next t ∧ AfterEffect t.dmaStall t.penaltyLeft t ∧ t.dmaStall ≤ 514 ∧ t.penaltyLeft ≤ 2 := by
  obtain ⟨t, ht, e⟩ := exec_effect i s
  have hhalt : (Instr.writes i).halt = false := beq_eq_false_iff_ne.mpr hi
  refine ⟨t, ht, ⟨e.timingMode.trans h.ntsc, e.inputs.trans h.inputs, (e.halted hhalt).trans h.notHalted,
    e.instructionCycle.trans h.cycle, rfl, rfl⟩, ?_, ?_⟩
  · exact (accesses_of_exec ht).dmaStall_le (by rw [h.stall]; decide)
  · exact e.penalty (by rw [h.penalty]; decide)

/-! ### The cycles before the effect step -/

/-- A read does not see the count of cycles. -/
theorem busRead_nextCycle (a : Word) (s : State) : busRead a (nextCycle s) = Prod.map id nextCycle (busRead a s) := by
  have h := busRead_seeing a (nextCycle s) s
  obtain ⟨q, d, e⟩ := busRead_only a s
  rw [show (nextCycle s).seeing s = nextCycle s from rfl] at h
  rw [h]
  refine Prod.ext rfl ?_
  rw [Prod.map_snd, Prod.map_snd, e]
  rfl

theorem fetchByte_nextCycle (s : State) : fetchByte (nextCycle s) = Prod.map id nextCycle (fetchByte s) := by
  have hpc : (nextCycle s).pc = s.pc := rfl
  simp only [fetchByte, hpc, busRead_nextCycle]
  rfl

theorem fetchOperands_nextCycle (n : Nat) (s : State) :
    fetchOperands n (nextCycle s) = Prod.map id nextCycle (fetchOperands n s) := by
  unfold fetchOperands
  split
  · rfl
  · simp only [fetchByte_nextCycle, Prod.map_fst, Prod.map_snd]
    rfl
  · simp only [fetchByte_nextCycle, Prod.map_fst, Prod.map_snd]
    rfl

/-- The effect step clears the count of cycles it was reached with (R334). -/
theorem effectStep_nextCycle (op : Byte) (s : State) : effectStep op (nextCycle s) =
    (let r := fetchOperands (opEntry op).mode.operandBytes s
    exec (instrOf op r.1.1 r.1.2) { r.2 with instructionCycle := 0, current := none, penaltyLeft := 0 }) := by
  simp only [effectStep, fetchOperands_nextCycle, Prod.map_fst, Prod.map_snd]
  rfl

section
variable {op : Byte} {k : Nat} {s : State}

/-- Inside an instruction the CPU's part of the tick is the next cycle of it, its effect step on the base-th (R333, R334). -/
theorem InEntry.tick_instr (h : InEntry (.instr op) k s) (hk : k ≠ 0) : tick s = andThen
    (if k + 1 = (opEntry op).base then effectStep op (nextCycle (counted s)) else .next (nextCycle (counted s)))
    (fun t => .next (ppuTick t)) := by
  rw [tick_of_ntsc h.ntsc, delivered_of_no_inputs h.inputs,
    cpuTick_of_no_stall (s := { s with masterCycle := s.masterCycle + 1 }) h.stall,
    cpuCycle_of_inner (s := { s with masterCycle := s.masterCycle + 1 }) h.notHalted h.penalty (h.cycle ▸ hk),
    innerCycle_of_instr (s := { s with masterCycle := s.masterCycle + 1, totalCycles := s.totalCycles + 1 }) h.current,
    ← h.cycle]
  rfl

/-- The idle cycles of an instruction in the run to the next boundary (R333). -/
theorem InEntry.settle_instr {n : Nat} (h : InEntry (.instr op) k s) (hk : k ≠ 0) (hn : k + n < (opEntry op).base)
    (m : Nat) : settle (m + n) s = settle m (Nat.iterate idleTick n s) := by
  induction n generalizing k s with
  | zero => rfl
  | succ n ih =>
    have ht : tick s = .next (idleTick s) := by
      rw [h.tick_instr hk, if_neg (by omega)]
      rfl
    rw [← Nat.add_assoc, settle_of_tick (h.not_settled hk) ht]
    exact ih h.after_idleTick (Nat.succ_ne_zero k) (by omega)

end

/-- The mnemonic of an opcode with a legal entry is not the illegal one (R73, R93). -/
theorem instrOf_legal {op : Byte} (h : (opEntry op).legal = true) (b1 b2 : Byte) :
    (instrOf op b1 b2).mnemonic ≠ .ILLEGAL := by
  obtain ⟨-, -, hform⟩ := instrOf_isForm op b1 b2
  obtain ⟨hmem, -⟩ := opEntry_of_legal op h
  rw [hform.mnemonic]
  intro e
  rw [e] at hmem
  cases hmem

/-- What a fetch may change besides PC is what a read may (R12, R55). -/
theorem fetchByte_only (s : State) : ∃ q d w, (fetchByte s).2 = { s with ppu := q, draws := d, pc := w } := by
  obtain ⟨q, d, e⟩ := busRead_only s.pc s
  exact ⟨q, d, _, by rw [fetchByte, e]⟩

theorem fetchOperands_only (n : Nat) (s : State) :
    ∃ q d w, (fetchOperands n s).2 = { s with ppu := q, draws := d, pc := w } := by
  unfold fetchOperands
  split
  · exact ⟨_, _, _, rfl⟩
  · exact fetchByte_only s
  · obtain ⟨q, d, w, e⟩ := fetchByte_only s
    obtain ⟨q', d', w', e'⟩ := fetchByte_only (fetchByte s).2
    exact ⟨q', d', w', by rw [e', e]⟩

/-- The state in which the instruction fetched as `op` runs, when `v` is the state its operand bytes are read in: the
sequencing fields are cleared (R334). -/
def effectState (op : Byte) (v : State) : State :=
  { (fetchOperands (opEntry op).mode.operandBytes v).2 with instructionCycle := 0, current := none, penaltyLeft := 0 }

/-- The instruction its operand bytes make (R73, R88). -/
def effectInstr (op : Byte) (v : State) : Instr :=
  instrOf op (fetchOperands (opEntry op).mode.operandBytes v).1.1 (fetchOperands (opEntry op).mode.operandBytes v).1.2

theorem InEntry.effectState_afterEffect {op : Byte} {k : Nat} {s : State} (h : InEntry (.instr op) k s) :
    AfterEffect 0 0 (effectState op (counted s)) := by
  obtain ⟨q, d, w, e⟩ := fetchOperands_only (opEntry op).mode.operandBytes (counted s)
  rw [effectState, e]
  exact ⟨h.ntsc, h.inputs, h.notHalted, rfl, h.stall, rfl⟩

/-- Once a tick has fetched a legal opcode, the step runs the instruction on its base-th cycle and then what the
instruction left to do (R332 to R335). -/
theorem step_of_fetched {s u : State} {op : Byte} (hl : (opEntry op).legal = true) (hfuel : settleFuel s = 600)
    (hu : InEntry (.instr op) 1 u) (ht : tick s = .next (ppuTick u)) {v : State}
    (hv : v = counted (Nat.iterate idleTick ((opEntry op).base - 2) (ppuTick u))) :
    ∃ t, exec (effectInstr op v) (effectState op v) = .next t ∧ step s = .next (finished t) := by
  obtain ⟨hbase, hbase'⟩ := base_of_legal op hl
  have hidle := hu.after_ppuTick.after_idleTicks ((opEntry op).base - 2)
  obtain ⟨t, hexec, hafter, hstall, hpenalty⟩ := exec_afterEffect (instrOf_legal hl _ _) hidle.effectState_afterEffect
  rw [← hv] at hexec
  refine ⟨t, hexec, ?_⟩
  have heffect : tick (Nat.iterate idleTick ((opEntry op).base - 2) (ppuTick u)) = .next (ppuTick t) := by
    rw [hidle.tick_instr (by omega), if_pos (by omega), effectStep_nextCycle, ← hv]
    exact congrArg (andThen · fun t => .next (ppuTick t)) hexec
  obtain ⟨m, hm⟩ : ∃ m, 600 = m + 1 + ((opEntry op).base - 2) := ⟨599 - ((opEntry op).base - 2), by omega⟩
  rw [step, runToBoundary, ht, andThen_next, hfuel, hm, hu.after_ppuTick.settle_instr (by decide) (by omega),
    settle_of_tick (hidle.not_settled (by omega)) heffect]
  exact hafter.settle_finished (by omega)

/-! ### The statements -/

theorem operandBytes_le_two (m : Mode) : m.operandBytes ≤ 2 := by
  cases m <;> decide

/-- The operand bytes read, with zeros for those the mode does not have, are the operands the decoder takes (R70, R88). -/
theorem decode_fetchOperands (op : Byte) (v : State) :
    decode (op :: [(fetchOperands (opEntry op).mode.operandBytes v).1.1,
      (fetchOperands (opEntry op).mode.operandBytes v).1.2].take (opEntry op).mode.operandBytes) =
      .ok (effectInstr op v, []) := by
  rw [decode_cons_eq_ok_iff, effectInstr]
  have hle := operandBytes_le_two (opEntry op).mode
  refine ⟨_, ?_, List.append_nil _, ?_⟩
  · exact (List.length_take ..).trans (Nat.min_eq_left hle)
  · generalize (opEntry op).mode.operandBytes = n at hle
    match n, hle with
    | 0, _ | 1, _ | 2, _ => rfl

theorem settleFuel_of_quiet {s : State} (h : QuietBoundary s) : settleFuel s = 600 := by
  rw [settleFuel, h.stall, h.penalty]

/-- The fetch tick at a quiet boundary (R332). -/
theorem tick_of_legal {s : State} (h : QuietBoundary s) {u : State}
    (hl : (opEntry (fetchByte (counted s)).1).legal = true)
    (hu : u = { (fetchByte (counted s)).2 with
      current := some (.instr (fetchByte (counted s)).1), instructionCycle := 1 }) :
    tick s = .next (ppuTick u) ∧ InEntry (.instr (fetchByte (counted s)).1) 1 u := by
  subst hu
  constructor
  · rw [tick_at_quietBoundary h, fetchCycle, if_pos hl]
    rfl
  · obtain ⟨q, d, w, e⟩ := fetchByte_only (counted s)
    rw [e]
    exact ⟨h.ntsc, h.notHalted, h.penalty, h.stall, h.inputs, rfl, rfl⟩

/-- Settles O6: the fetch tick, and `step_of_fetched`. -/
theorem stepRunsTheDecodedInstruction : Obligations.StepRunsTheDecodedInstruction := by
  intro s h f hl n r i
  obtain ⟨ht, hu⟩ := tick_of_legal h hl rfl
  exact ⟨decode_fetchOperands f.1 (beforeEffect f.1 f.2),
    step_of_fetched hl (settleFuel_of_quiet h) hu ht (v := beforeEffect f.1 f.2) rfl⟩

end Sys2Proof.Machine
end

section
/-! The step on code in plain memory: the ticks before the effect step change the PPU and the counters alone, and the bytes
fetched are those that stand there; so the cycle count is the table's with the penalty (R330 to R334, R339). -/

namespace Sys2Proof.Machine

open Sys2Proof.Spec (counted idleTick stallTick penaltyTick beforeEffect finished CodeAt penalty crossed base index)

/-! ### A PPU cycle sees the PPU and the free values alone -/

/-- The two states have the same PPU and the same free values to draw. -/
structure SamePpu (s t : State) : Prop where
  ppu : t.ppu = s.ppu
  draws : t.draws = s.draws

theorem SamePpu.spriteFlagsStep {s t : State} (h : SamePpu s t) : SamePpu (spriteFlagsStep s) (spriteFlagsStep t) := by
  have hsprite : SpriteCycle t ↔ SpriteCycle s := by rw [SpriteCycle, h.ppu, SpriteCycle]
  by_cases hs : SpriteCycle s
  · rw [spriteFlagsStep_of_sprite hs, spriteFlagsStep_of_sprite (hsprite.mpr hs), drawnFlags, drawnFlags, h.ppu, h.draws]
    exact ⟨rfl, rfl⟩
  · rwa [spriteFlagsStep_of_no_sprite hs, spriteFlagsStep_of_no_sprite (mt hsprite.mp hs)]

theorem SamePpu.secondaryStep {s t : State} (h : SamePpu s t) : SamePpu (secondaryStep s) (secondaryStep t) := by
  unfold Machine.secondaryStep
  rw [h.ppu]
  split_ifs
  · exact ⟨rfl, h.draws⟩
  · exact ⟨rfl, h.draws⟩
  · exact h

theorem SamePpu.ppuAct {s t : State} (h : SamePpu s t) : SamePpu (ppuAct s) (ppuAct t) := by
  unfold Machine.ppuAct
  rw [h.ppu]
  split_ifs
  · exact h.secondaryStep.spriteFlagsStep
  · rw [vblankStart_eq, vblankStart_eq, h.ppu]
    exact ⟨rfl, h.draws⟩
  · rw [vblankEnd, vblankEnd, h.ppu]
    exact ⟨rfl, h.draws⟩
  · exact h

theorem SamePpu.ppuCycles {s t : State} (h : SamePpu s t) (n : Nat) : SamePpu (ppuCycles n s) (ppuCycles n t) := by
  induction n generalizing s t with
  | zero => exact h
  | succ n ih => exact ih ⟨congrArg Ppu.advance h.ppuAct.ppu, h.ppuAct.draws⟩

/-- The frame notification is an output (R303). -/
theorem ppuTick_samePpu (s : State) : SamePpu (ppuCycles 3 s) (ppuTick s) := by
  rw [ppuTick, Config.ppuPerCpu]
  split_ifs
  · exact ⟨rfl, rfl⟩
  · exact ⟨emit_ppu _ _, emit_draws _ _⟩

/-! ### The ticks before the effect step -/

/-- `t` comes from `s` by `n` ticks that count, run the PPU, and change the sequencing fields at most (R301, R333). -/
def Waited (n : Nat) (s t : State) : Prop := ∃ k c pd o, t = { s with
  instructionCycle := k, current := c, pending := pd, outputs := o
  ppu := (ppuCycles (3 * n) s).ppu, draws := (ppuCycles (3 * n) s).draws
  totalCycles := s.totalCycles + n, masterCycle := s.masterCycle + n }

theorem Waited.trans {m n : Nat} {s t u : State} (h : Waited m s t) (k : Waited n t u) : Waited (m + n) s u := by
  obtain ⟨_, _, _, _, ht⟩ := h
  obtain ⟨c, i, pd, o, hu⟩ := k
  have hsame : SamePpu (ppuCycles (3 * (m + n)) s) (ppuCycles (3 * n) t) := by
    have hst : SamePpu (ppuCycles (3 * m) s) t := ⟨by rw [ht], by rw [ht]⟩
    rw [Nat.mul_add, ppuCycles_add]
    exact hst.ppuCycles _
  rw [hsame.ppu, hsame.draws] at hu
  subst ht
  exact ⟨c, i, pd, o, by rw [hu, Nat.add_assoc, Nat.add_assoc]⟩

/-- A tick whose CPU cycle changes the sequencing fields at most. -/
theorem waited_ppuTick (k : Nat) (c : Option Current) (s : State) :
    Waited 1 s (ppuTick { counted s with instructionCycle := k, current := c }) := by
  have hsame : SamePpu (ppuCycles 3 s) (ppuTick { counted s with instructionCycle := k, current := c }) := by
    have hticked := ppuTick_samePpu { counted s with instructionCycle := k, current := c }
    have hcounted := SamePpu.ppuCycles (s := s) (t := { counted s with instructionCycle := k, current := c }) ⟨rfl, rfl⟩ 3
    exact ⟨hticked.ppu.trans hcounted.ppu, hticked.draws.trans hcounted.draws⟩
  obtain ⟨q, pd, d, o, e⟩ := ppuTick_only { counted s with instructionCycle := k, current := c }
  rw [e] at hsame ⊢
  exact ⟨k, c, pd, o, by rw [← hsame.ppu, ← hsame.draws]; rfl⟩

theorem waited_idleTicks (n : Nat) (s : State) : Waited n s (Nat.iterate idleTick n s) := by
  induction n generalizing s with
  | zero => exact ⟨_, _, _, _, rfl⟩
  | succ n ih =>
    have hidle : Waited 1 s (idleTick s) := waited_ppuTick (s.instructionCycle + 1) s.current s
    have h := hidle.trans (ih (idleTick s))
    rwa [Nat.add_comm 1 n] at h

/-! ### Code in plain memory (R64, R70) -/

theorem fetchByte_plain {s : State} (h : plainMemory s.cart s.pc = true) :
    fetchByte s = ((busRead s.pc s).1, { s with pc := s.pc + 1 }) := by
  rw [fetchByte, busRead_plain h]

/-- The bytes `bs` stand in plain memory from `a` on. -/
def BytesAt (a : Word) (bs : List Byte) (s : State) : Prop :=
  ∀ k b, bs[k]? = some b →
    plainMemory s.cart (a + BitVec.ofNat 16 k) = true ∧ (busRead (a + BitVec.ofNat 16 k) s).1 = b

theorem BytesAt.congr {a : Word} {bs : List Byte} {s t : State} (h : BytesAt a bs s) (hram : t.ram = s.ram)
    (hcart : t.cart = s.cart) (hepoch : t.memEpoch = s.memEpoch) : BytesAt a bs t := by
  intro k b hb
  obtain ⟨hplain, hbyte⟩ := h k b hb
  exact ⟨hcart ▸ hplain, by rw [busRead_plain_congr hplain hram hcart hepoch, hbyte]⟩

theorem BytesAt.tail {a : Word} {b : Byte} {bs : List Byte} {s : State} (h : BytesAt a (b :: bs) s) :
    BytesAt (a + 1) bs s := by
  intro k c hc
  have hadd : a + 1 + BitVec.ofNat 16 k = a + BitVec.ofNat 16 (k + 1) := by
    rw [BitVec.add_assoc, BitVec.ofNat_add, BitVec.add_comm (BitVec.ofNat 16 k)]
    rfl
  rw [hadd]
  exact h (k + 1) c hc

/-- A fetch takes the first of the bytes at PC and has no other effect (R12, R55). -/
theorem BytesAt.fetchByte {b : Byte} {bs : List Byte} {s : State} (h : BytesAt s.pc (b :: bs) s) :
    fetchByte s = (b, { s with pc := s.pc + 1 }) := by
  obtain ⟨hplain, hbyte⟩ := h 0 b rfl
  have hzero : s.pc + BitVec.ofNat 16 0 = s.pc := BitVec.add_zero s.pc
  rw [hzero] at hplain hbyte
  rw [fetchByte_plain hplain, hbyte]

/-- The operand reads take all of the bytes at PC (R88). -/
theorem BytesAt.fetchOperands {bs : List Byte} {s : State} (h : BytesAt s.pc bs s) (hlen : bs.length ≤ 2) :
    fetchOperands bs.length s =
      ((operand1 bs, operand2 bs), { s with pc := s.pc + BitVec.ofNat 16 bs.length }) := by
  match bs, hlen with
  | [], _ => simp [Machine.fetchOperands, operand1, operand2]
  | [b1], _ =>
    simp only [Machine.fetchOperands, List.length_singleton, h.fetchByte]
    rfl
  | [b1, b2], _ =>
    have h2 : BytesAt ({ s with pc := s.pc + 1 } : State).pc [b2] { s with pc := s.pc + 1 } := h.tail.congr rfl rfl rfl
    simp only [Machine.fetchOperands, List.length_cons, List.length_nil, h.fetchByte, h2.fetchByte, BitVec.add_assoc]
    rfl

/-- The ticks from a fetched opcode to its effect step, the counters of the effect cycle included (R332 to R334). -/
theorem beforeEffect_waited {op : Byte} (hl : (opEntry op).legal = true) (s : State) :
    ∃ v, Waited ((opEntry op).base - 1) s v ∧ beforeEffect op (counted s) = counted v := by
  obtain ⟨hbase, -⟩ := base_of_legal op hl
  have hn : 1 + ((opEntry op).base - 2) = (opEntry op).base - 1 := by omega
  exact ⟨_, hn ▸ (waited_ppuTick 1 (some (.instr op)) s).trans (waited_idleTicks _ _), rfl⟩

/-- With its operand bytes at PC the instruction is made again, and runs with PC past them (R73, R88, R334). -/
theorem effect_of_bytes {i : Instr} {op : Byte} (hi : i.wf = true) (hop : i.opcode = some op) {v : State}
    (h : BytesAt v.pc i.operandBytes v) : effectInstr op v = i ∧ effectState op v = { v with
      pc := v.pc + BitVec.ofNat 16 i.operandBytes.length, instructionCycle := 0, current := none, penaltyLeft := 0 } := by
  obtain ⟨hinstr, hmode⟩ := instrOf_operandBytes hi hop
  have hlen : (opEntry op).mode.operandBytes = i.operandBytes.length := by rw [hmode, i.length_operandBytes]
  have hfetch := h.fetchOperands (hlen ▸ operandBytes_le_two (opEntry op).mode)
  rw [effectInstr, effectState, hlen, hfetch]
  exact ⟨hinstr, rfl⟩

/-- The fetch of code in plain memory: the opcode, and PC past it (R332). -/
theorem fetchByte_of_code {i : Instr} {op : Byte} {s : State} (hop : i.opcode = some op) (hcode : CodeAt s i) :
    fetchByte (counted s) = (op, counted { s with pc := s.pc + 1 }) := by
  have hbytes : BytesAt s.pc (op :: i.operandBytes) s := encode_of_opcode hop ▸ hcode
  exact BytesAt.fetchByte (s := counted s) (hbytes.congr rfl rfl rfl)

/-- Settles O7: the state the effect step runs in, from the ticks before it and the bytes at PC. -/
theorem stepRunsTheInstructionAtPc : Obligations.StepRunsTheInstructionAtPc := by
  intro s i op hq hi hop hl hcode
  have hencode := encode_of_opcode hop
  have hbytes : BytesAt s.pc (op :: i.operandBytes) s := hencode ▸ hcode
  have hf := fetchByte_of_code hop hcode
  obtain ⟨ht, hu⟩ := tick_of_legal hq (by rw [hf]; exact hl) rfl
  rw [hf] at ht hu
  obtain ⟨v, hwait, hv⟩ := beforeEffect_waited hl { s with pc := s.pc + 1 }
  obtain ⟨t, hexec, hstep⟩ := step_of_fetched hl (settleFuel_of_quiet hq) hu ht hv.symm
  have hat : BytesAt (counted v).pc i.operandBytes (counted v) := by
    obtain ⟨k, c, pd, o, rfl⟩ := hwait
    exact hbytes.tail.congr rfl rfl rfl
  obtain ⟨hinstr, hstate⟩ := effect_of_bytes hi hop hat
  rw [hinstr, hstate] at hexec
  refine ⟨_, t, hexec, hstep, ?_⟩
  have hsame := SamePpu.ppuCycles (s := s) (t := { s with pc := s.pc + 1 }) ⟨rfl, rfl⟩ (3 * ((opEntry op).base - 1))
  obtain ⟨hbase, -⟩ := base_of_legal op hl
  have hcount : ∀ n, n + ((opEntry op).base - 1) + 1 = n + (opEntry op).base := by omega
  obtain ⟨k, c, pd, o, rfl⟩ := hwait
  refine ⟨rfl, rfl, rfl, rfl, rfl, ?_, rfl, rfl, rfl, hq.notHalted, rfl, rfl, rfl, hq.stall, hcount _, hcount _, hsame.ppu⟩
  rw [hencode, List.length_cons, BitVec.ofNat_add, BitVec.add_comm (BitVec.ofNat 16 _), ← BitVec.add_assoc]
  rfl

/-! ### The cycle count (R339) -/

theorem totalCycles_ppuTick (s : State) : (ppuTick s).totalCycles = s.totalCycles := (ppuTick_sameCpu s).totalCycles

theorem totalCycles_stallTicks (n : Nat) (s : State) : (Nat.iterate stallTick n s).totalCycles = s.totalCycles := by
  induction n generalizing s with
  | zero => rfl
  | succ n ih =>
    rw [Nat.iterate, ih, stallTick, totalCycles_ppuTick]

theorem totalCycles_penaltyTicks (n : Nat) (s : State) :
    (Nat.iterate penaltyTick n s).totalCycles = s.totalCycles + n := by
  induction n generalizing s with
  | zero => rfl
  | succ n ih =>
    rw [Nat.iterate, ih, penaltyTick, totalCycles_ppuTick]
    exact Nat.add_right_comm s.totalCycles 1 n

/-- After the effect step only the penalty cycles are CPU cycles (R291, R335). -/
theorem totalCycles_finished (t : State) : (finished t).totalCycles = t.totalCycles + t.penaltyLeft := by
  rw [finished, totalCycles_penaltyTicks, totalCycles_stallTicks, totalCycles_ppuTick]

/-- What the penalty is computed from (R87, R174). -/
theorem penalty_congr (i : Instr) {s t : State} (hx : t.x = s.x) (hy : t.y = s.y) (hp : t.p = s.p) (hpc : t.pc = s.pc)
    (hram : t.ram = s.ram) (hepoch : t.memEpoch = s.memEpoch) : penalty i t = penalty i s := by
  have hpointer : ∀ z, Spec.pointer t z = Spec.pointer s z := fun z => by
    simp only [Spec.pointer, ramByte, hram, hepoch]
  have hbase : ∀ m, base m t = base m s := fun m => by
    cases m <;> simp only [base, hx, hy, hpointer]
  have hindex : ∀ m, index m t = index m s := fun m => by
    cases m <;> simp only [index, hx, hy]
  have hcrossed : ∀ m, crossed m t = crossed m s := fun m => by rw [crossed, hbase, hindex, crossed]
  cases i with
  | lda o | ldx o | ldy o | adc o | sbc o | cmp o | and o | ora o | eor o =>
    cases o with
    | imm v => rfl
    | mem m => simp only [penalty, hcrossed]
  | bcc off | bcs off | beq off | bne off | bmi off | bpl off | bvc off | bvs off => simp only [penalty, hp, hpc]
  | _ => rfl

/-- An illegal opcode charges no penalty (R93). -/
theorem penalty_of_not_legal {i : Instr} {op : Byte} (hi : i.wf = true) (hop : i.opcode = some op)
    (hl : (opEntry op).legal = false) (s : State) : penalty i s = 0 := by
  obtain ⟨_, hop', -, -, hlegal⟩ := tableRow i hi
  obtain rfl := Option.some.inj (hop.symm.trans hop')
  have hill : i.mnemonic = .ILLEGAL := by simpa [hl] using hlegal
  obtain ⟨op', rfl⟩ := Instr.mnemonic_eq_illegal_iff.mp hill
  rfl

/-- Settles O8: a legal instruction by O7 and the penalty it charges, an illegal one by its one tick. -/
theorem instructionTakesBasePlusPenaltyCycles : Obligations.InstructionTakesBasePlusPenaltyCycles := by
  intro s i op hq hi hop hcode
  cases hl : (opEntry op).legal with
  | true =>
    obtain ⟨u, t, hexec, hstep, -, hx, hy, -, hp, hpc, hram, -, hepoch, -, -, -, hpenalty, -, htotal, -, -⟩ :=
      stepRunsTheInstructionAtPc s i op hq hi hop hl hcode
    obtain ⟨t', hexec', hcharged⟩ := exec_penaltyLeft hi hpenalty
    obtain rfl := Host.Outcome.next.inj (hexec.symm.trans hexec')
    refine ⟨_, hstep, ?_⟩
    rw [totalCycles_finished, (effect_of_exec hexec).totalCycles, htotal, hcharged,
      penalty_congr i (s := { s with pc := s.pc + BitVec.ofNat 16 (encode i).length }) hx hy hp hpc hram hepoch]
  | false =>
    obtain ⟨hbad, hmem⟩ := opEntry_of_not_legal op hl
    have hread : (busRead s.pc (counted s)).1 = op := congrArg Prod.fst (fetchByte_of_code hop hcode)
    obtain ⟨q, d, e⟩ := busRead_only s.pc (counted s)
    refine ⟨_, step_of_illegal hq (hread ▸ hmem), ?_⟩
    rw [totalCycles_ppuTick, e, hbad, penalty_of_not_legal hi hop hl]
    rfl

end Sys2Proof.Machine
end

section
/-! The halted CPU, the host's reset, and PAL (R225, R305, R320, R325, R336). -/

namespace Sys2Proof.Machine

open Sys2Proof.Spec (counted cpuReinitialised)

/-! ### The halted CPU -/

/-- The tick of a halted CPU (R336). -/
theorem tick_of_halted {s : State} (hm : s.timingMode = .ntsc) (hh : s.halted = true) (hs : s.dmaStall = 0)
    (hi : s.inputs = []) :
    tick s = .next (ppuTick (if s.pending.nmi then acceptNmi (counted s) else counted s)) := by
  rw [tick_of_ntsc hm, delivered_of_no_inputs hi, cpuTick_of_no_stall (s := { s with masterCycle := s.masterCycle + 1 }) hs,
    cpuCycle_of_halted (s := { s with masterCycle := s.masterCycle + 1 }) hh]
  rfl

/-- Settles O9: without an NMI the tick ends settled; with one it is cycle 1 of the NMI entry. -/
theorem haltedCpuWakesOnlyOnNmi : Obligations.HaltedCpuWakesOnlyOnNmi := by
  intro s hm hh hk hp hs hi
  have ht := tick_of_halted hm hh hs hi
  by_cases hn : s.pending.nmi = true
  · rw [if_pos hn] at ht ⊢
    exact step_of_accepted (.inl ⟨rfl, rfl⟩) ⟨hm, rfl, hp, hs, hi, rfl, rfl⟩ ht
  · have hcounted : settled (counted s) = true := settled_iff.mpr ⟨hk, hp, hs⟩
    rw [if_neg hn] at ht ⊢
    exact step_of_tick ht ((settled_ppuTick _).trans hcounted)

/-! ### PAL -/

/-- Settles O58: the tick refuses, and the step is first a tick. -/
theorem palIsRefused : Obligations.PalIsRefused := by
  refine fun s => ⟨rfl, fun h => ⟨tick_of_pal h, ?_⟩⟩
  rw [step, runToBoundary, tick_of_pal h, andThen_refused]

/-! ### The host's reset -/

/-- A read of the cartridge, from all it depends on: the byte, and the free values drawn after it (R51, R52). -/
def cartRead (c : Cartridge) (draws : Nat) (a : Word) : Byte × Nat :=
  match mapCpuAddress c a with
  | some (off, kind) => (cartByte c off kind, draws)
  | none => (Config.unmappedRead draws, draws + 1)

theorem busRead_eq_cartRead {a : Word} (h : 0x4020 ≤ a.toNat) (s : State) : busRead a s =
    ((cartRead s.cart s.draws a).1, { s with draws := (cartRead s.cart s.draws a).2 }) := by
  rw [busRead_cart h, cartRead]
  rcases mapCpuAddress s.cart a with _ | ⟨off, kind⟩ <;> rfl

/-- The reset vector as a cartridge gives it, low byte first, and the free values drawn after it (R321). -/
def resetVectorRead (c : Cartridge) (draws : Nat) : Word × Nat :=
  let lo := cartRead c draws 0xFFFC
  let hi := cartRead c lo.2 0xFFFD
  (BitVec.ofNat 16 (lo.1.toNat + 256 * hi.1.toNat), hi.2)

/-- Where the mapper maps the vector, it is the same whatever was drawn, and nothing is drawn for it (R325). -/
theorem resetVectorRead_of_mapped {c : Cartridge} (hlo : (mapCpuAddress c 0xFFFC).isSome = true)
    (hhi : (mapCpuAddress c 0xFFFD).isSome = true) : ∃ w, ∀ draws, resetVectorRead c draws = (w, draws) := by
  obtain ⟨⟨off, kind⟩, hmap⟩ := Option.isSome_iff_exists.mp hlo
  obtain ⟨⟨off', kind'⟩, hmap'⟩ := Option.isSome_iff_exists.mp hhi
  exact ⟨_, fun draws => by simp only [resetVectorRead, cartRead, hmap, hmap']; rfl⟩

/-- The machine with the cartridge `c` after a reset, with the PC and the count of free values in `v` (R320). -/
def resetMachine (c : Cartridge) (running : Bool) (epoch : Nat) (v : Word × Nat) : State :=
  { State.reset with cart := c, running := running, memEpoch := epoch, pc := v.1, draws := v.2 }

/-- Everything the host's reset leaves of the state: the cartridge through its own reset, the running flag, and the model's
own counters (R320; log entries 4 and 13). -/
theorem hostReset_eq (s : State) : hostReset s = resetMachine (mapperReset s.cart) s.running (s.memEpoch + 1)
    (resetVectorRead (mapperReset s.cart) s.draws) := by
  rw [hostReset, cpuReset_eq, cpuReinitialised, busRead_eq_cartRead (by decide), busRead_eq_cartRead (by decide)]
  rfl

/-- Settles O56: the fields by `hostReset_eq`; the vector is read from the cartridge, which sees no other field. -/
theorem hostResetGivesTheResetState : Obligations.HostResetGivesTheResetState := by
  intro s
  simp only [hostReset_eq, busRead_eq_cartRead (a := 0xFFFC) (by decide), busRead_eq_cartRead (a := 0xFFFD) (by decide)]
  and_intros <;> rfl

/-- Settles O57: both resets leave the same cartridge, so they differ in the reset's number and the vector read alone. -/
theorem secondResetChangesNothing : Obligations.SecondResetChangesNothing := by
  intro s hidem
  have hfirst := hostReset_eq s
  have hsecond := hostReset_eq (hostReset s)
  have hcart : (hostReset s).cart = mapperReset s.cart := by rw [hfirst, resetMachine]
  have hrunning : (hostReset s).running = s.running := by rw [hfirst, resetMachine]
  have hepoch : (hostReset s).memEpoch = s.memEpoch + 1 := by rw [hfirst, resetMachine]
  rw [hcart, hidem, hrunning, hepoch] at hsecond
  refine ⟨by rw [hsecond, hfirst]; rfl, fun hlo hhi => ?_⟩
  rw [hcart] at hlo hhi
  obtain ⟨w, hw⟩ := resetVectorRead_of_mapped hlo hhi
  have hdraws : (hostReset s).draws = s.draws := by rw [hfirst, resetMachine, hw]
  rw [hsecond, hdraws, hfirst, hw]
  rfl

end Sys2Proof.Machine
end
